-- ==== Sys2Proof/Word.lean ====
section
/-! DEFINITION. The word types of the FTB: the fixed widths of spec/00_scope.md R7 (`OP_W`, `ADDR_W`, `DATA_W`,
`STATUS_W`, `FRAME_BYTES`). Every value is unsigned (R10). -/

namespace Sys2Proof

/-- One byte on the wire; also the opcode (`OP_W` = 8). -/
abbrev Byte := BitVec 8

/-- A chip address (`ADDR_W` = 16, R50). -/
abbrev Addr := BitVec 16

/-- A data, response or status word (`DATA_W` = `STATUS_W` = 32). -/
abbrev Word32 := BitVec 32

/-- The wire frame `W[55:0]` (`FRAME_BYTES` = 7 bytes, R74). -/
abbrev WireFrame := BitVec 56

end Sys2Proof
end

