-- ==== Sys2Proof/Config.lean ====
section
/-! DEFINITION. The build-time parameters of spec/00_scope.md R7, the derived cycle counts, the reference
configuration REF, and the free values. A model takes the OPEN parameters as arguments (R7), so they are one
plain-data record that the state carries and no step changes. -/

namespace Sys2Proof

/-- Bit order inside a byte on the wire, `BIT_ORDER` (R52, OPEN). -/
inductive BitOrder where
  | msbFirst
  | lsbFirst
deriving DecidableEq, Repr

/-- `SPI_MODE` split into clock polarity and clock phase (R104, OPEN). -/
structure SpiMode where
  /-- the idle level of `sclk` -/
  cpol : Bool
  /-- 0: sample on the leading edge; 1: sample on the trailing edge -/
  cpha : Bool
deriving DecidableEq, Repr

/-- The seven higher-order error flags (R80). Informative: no FTB behaviour depends on which is which. -/
inductive ErrorFlag where
  | invalidCommandState
  | logZero
  | logSign
  | voltAdcSaturated
  | currAdcSaturated
  | fifoError
  | countExceeded
deriving DecidableEq, Repr

/-- The parameters of R7. Field names follow the table. -/
structure Params where
  /-- `CYC_US`: clock cycles per microsecond -/
  cycUs : Nat
  /-- `T_IDLE_US` -/
  tIdleUs : Nat
  /-- `T_SETUP_US` -/
  tSetupUs : Nat
  /-- `T_HOLD_US` -/
  tHoldUs : Nat
  /-- `T_GAP_US` -/
  tGapUs : Nat
  /-- `T_POLL_US` -/
  tPollUs : Nat
  /-- `CNT_W`: width of the attempt count -/
  cntW : Nat
  /-- `SCLK_HALF`: clock cycles per half period of `sclk` -/
  sclkHalf : Nat
  /-- `SPI_MODE` -/
  spiMode : SpiMode
  /-- `BIT_ORDER` -/
  bitOrder : BitOrder
  /-- `SYNC_STAGES`: synchroniser flops on `miso` -/
  syncStages : Nat
  /-- `OP_STATUS_READ`: opcode byte of the status-read frame -/
  opStatusRead : Byte
  /-- `P_MEAS_DONE` -/
  pMeasDone : Nat
  /-- `P_DONE` -/
  pDone : Nat
  /-- `P_ERROR` -/
  pError : Nat
  /-- `P_WARNING` -/
  pWarning : Nat
  /-- `P_FIFO_ERR` -/
  pFifoErr : Nat
  /-- `L_DEPTH`: lowest bit of the FIFO-depth field -/
  lDepth : Nat
  /-- `L_CODE`: lowest bit of the code field -/
  lCode : Nat
  /-- `ERR_FLAG_ORDER`: the flag at `code[4]`, `code[5]`, …, `code[10]` (informative) -/
  errFlagOrder : List ErrorFlag
deriving DecidableEq, Repr

namespace Params

/-- `T_IDLE = T_IDLE_US * CYC_US` (R7). -/
def tIdle (p : Params) : Nat := p.tIdleUs * p.cycUs
/-- `T_SETUP = T_SETUP_US * CYC_US` (R7). -/
def tSetup (p : Params) : Nat := p.tSetupUs * p.cycUs
/-- `T_HOLD = T_HOLD_US * CYC_US` (R7). -/
def tHold (p : Params) : Nat := p.tHoldUs * p.cycUs
/-- `T_GAP = T_GAP_US * CYC_US` (R7). -/
def tGap (p : Params) : Nat := p.tGapUs * p.cycUs
/-- `T_POLL = T_POLL_US * CYC_US` (R7). -/
def tPoll (p : Params) : Nat := p.tPollUs * p.cycUs

/-- The longest of the five delays (R7, row `TCNT_W`). -/
def tMax (p : Params) : Nat := max p.tIdle (max p.tSetup (max p.tHold (max p.tGap p.tPoll)))

/-- `TCNT_W`: just wide enough to hold `max(T_x) - 1` (R7; D32). -/
def tcntW (p : Params) : Nat := Nat.log2 (p.tMax - 1) + 1

/-- The seven status fields as (lowest bit, width) (R78). -/
def statusFields (p : Params) : List (Nat × Nat) :=
  [(p.pMeasDone, 1), (p.pDone, 1), (p.pError, 1), (p.pWarning, 1), (p.pFifoErr, 1), (p.lDepth, 8), (p.lCode, 16)]

end Params

/-- `DEFAULT_MAX_ATTEMPTS`, the budget a client uses when it names none (R7, informative). -/
def defaultMaxAttempts : Nat := 40

/-- FREE VALUE, no body. What the chip drives on `miso` in a cycle for which the script of the pins says nothing:
every received bit is a draw under no law (R56, R107). Applied to the number of the clock cycle. -/
opaque Config.misoDraw : Nat → Bool

/-- FREE VALUE, no body. The opcode byte that the reset state's configuration uses for `OP_STATUS_READ`: the source
gives no value, so none may be assumed (R76, D21). -/
opaque Config.opStatusRead : Byte

/-- REF, the reference configuration of R7, R78 and R80 (DESIGN CHOICE of the spec, used for test vectors;
`OP_STATUS_READ` has no reference value and stays free). -/
def Params.ref : Params where
  cycUs := 1
  tIdleUs := 40
  tSetupUs := 4
  tHoldUs := 4
  tGapUs := 4
  tPollUs := 25
  cntW := 16
  sclkHalf := 1
  spiMode := ⟨false, false⟩
  bitOrder := .msbFirst
  syncStages := 0
  opStatusRead := Config.opStatusRead
  pMeasDone := 28
  pDone := 27
  pError := 26
  pWarning := 25
  pFifoErr := 24
  lDepth := 16
  lCode := 0
  errFlagOrder := [.invalidCommandState, .logZero, .logSign, .voltAdcSaturated, .currAdcSaturated, .fifoError,
    .countExceeded]

end Sys2Proof
end

