-- ==== Sys2Proof/Machine/State.lean ====
section
/-! DEFINITION. Every register of the FTB (spec/10_state.md), the levels of its input pins over time, and the reset
state (R36). Plain data: 1-bit registers are Bool (true is 1), words are bit vectors, counts and timers are numbers
whose bounds are stated as invariants in Safety. -/

namespace Sys2Proof.Machine

/-- The control FSM `ctl` (R24). -/
inductive Ctl where
  /-- `C_IDLE`: no command in progress -/
  | idle
  /-- `C_XFER`: a frame is in progress -/
  | xfer
  /-- `C_PWAIT`: POLL, between two attempts -/
  | pwait
  /-- `C_RESP`: the one cycle in which `rsp_valid = 1` -/
  | resp
deriving DecidableEq, Repr

/-- The transport FSM `xs` (R25). -/
inductive Xs where
  /-- `X_OFF`: no frame -/
  | off
  /-- `X_PRE`: idle before assertion -/
  | pre
  /-- `X_SETUP`: settle after assertion -/
  | setup
  /-- `X_SHIFT`: one byte being shifted -/
  | shift
  /-- `X_GAP`: gap after bytes 0..5 -/
  | gap
  /-- `X_HOLD`: settle after byte 6 -/
  | hold
deriving DecidableEq, Repr

/-- The command register `kind` (R26): 0 = FRAME, 1 = POLL. -/
inductive Kind where
  | frame
  | poll
deriving DecidableEq, Repr

/-- The decoder's result, and the seven decoded status registers `ST_*` (R21, R140). -/
structure Status where
  /-- `ST_DONE` -/
  done : Bool
  /-- `ST_MEAS_DONE` -/
  measDone : Bool
  /-- `ST_ERROR` -/
  error : Bool
  /-- `ST_WARNING` -/
  warning : Bool
  /-- `ST_FIFO_ERR` -/
  fifoErr : Bool
  /-- `ST_FIFO_DEPTH` -/
  fifoDepth : BitVec 8
  /-- `ST_CODE` -/
  code : BitVec 16
deriving DecidableEq, Repr

/-- The response registers (R29). `rsp_valid` is no register of its own: it is decoded from `ctl` (R36). -/
structure Response where
  /-- `rsp_data` -/
  data : Word32
  /-- `rsp_done` -/
  done : Bool
  /-- `rsp_attempts`, `CNT_W` bits -/
  attempts : Nat
  /-- `rsp_illegal` -/
  illegal : Bool
deriving DecidableEq, Repr

/-- The levels of the input pins in one clock cycle (R20). -/
structure Pins where
  /-- `rst` -/
  rst : Bool
  /-- `req_valid` -/
  reqValid : Bool
  /-- `req`, the request bundle as a number (R70) -/
  req : Nat
  /-- `miso`; none where the script says nothing of it: the bit is then a free draw -/
  miso : Option Bool
  /-- `dec_in` -/
  decIn : Word32
deriving DecidableEq, Repr

/-- The pins in a cycle beyond the script: no reset, no request, the chip's answer free. DESIGN CHOICE, unsafe for a
statement about one state with a short script (notes/assumptions/4.md). -/
def Pins.quiet : Pins where
  rst := false
  reqValid := false
  req := 0
  miso := none
  decIn := 0

/-- The machine: the parameters it is built with, the registers of spec/10_state.md, and the outside world as a script
of pin levels, the present clock cycle first. -/
structure State where
  /-- the build-time parameters (R7); no step changes them -/
  params : Params
  /-- control FSM (R24) -/
  ctl : Ctl
  /-- transport FSM (R25) -/
  xs : Xs
  /-- command in progress (R26) -/
  kind : Kind
  /-- wire frame being sent (R26) -/
  frm : WireFrame
  /-- POLL's budget, `CNT_W` bits (R26) -/
  nmax : Nat
  /-- attempts completed in this POLL, `CNT_W` bits (R26) -/
  att : Nat
  /-- delay timer, `TCNT_W` bits (R27) -/
  tcnt : Nat
  /-- index of the byte in `X_SHIFT` or `X_GAP` (R28) -/
  bidx : BitVec 3
  /-- index of the bit inside the byte, in transfer order (R28) -/
  bitn : BitVec 3
  /-- cycle inside the half period, counting down (R28) -/
  hcnt : Nat
  /-- 0 = first half of the bit, 1 = second half (R28) -/
  ph : Bool
  /-- bits of the current byte received so far (R28) -/
  rxb : Byte
  /-- response bytes 3..6 accumulated so far (R28) -/
  rxacc : Word32
  /-- `miso` synchroniser, the newest flop first (R28) -/
  msync : List Bool
  /-- response registers (R29) -/
  rsp : Response
  /-- `ST_RAW` (R21) -/
  stRaw : Word32
  /-- the seven decoded status registers (R21) -/
  st : Status
  /-- `cs_n`, active low (R30) -/
  csN : Bool
  /-- `sclk` (R30) -/
  sclk : Bool
  /-- `mosi` (R30) -/
  mosi : Bool
  /-- MODEL'S OWN: what the outside world puts on the input pins, this cycle first, `Pins.quiet` after the end -/
  env : List Pins
  /-- MODEL'S OWN: number of the present clock cycle, the index of the free draws (notes/assumptions/3.md) -/
  cycle : Nat
deriving DecidableEq, Repr

/-- Why the machine stops with a fault. The FTB raises no exception and no command can fail (R108, R200), so there is
no fault at all. -/
inductive Fault
deriving DecidableEq, Repr

/-- Why the machine refuses a step. -/
inductive Refusal where
  /-- raised by an arm of exec for an instruction that has no meaning yet (no arm does); safe -/
  | notModelled (mnemonic : String)
  /-- raised by every clock cycle of a machine whose parameters break a constraint of R8 ("A model must refuse it
  rather than give it a meaning"); safe -/
  | illegalConfiguration
deriving DecidableEq, Repr

/-- The status registers after reset: all zeros, "unknown" (R36, R222). -/
def Status.zero : Status := ⟨false, false, false, false, false, 0, 0⟩

/-- The response registers after reset (R29, R36). -/
def Response.zero : Response := ⟨0, false, 0, false⟩

/-- The machine with parameters `p` right after reset: every register at the value of R36, `rst` released, nothing
offered on the request port. -/
def State.resetOf (p : Params) : State where
  params := p
  ctl := .idle
  xs := .off
  kind := .frame
  frm := 0
  nmax := 0
  att := 0
  tcnt := 0
  bidx := 0
  bitn := 0
  hcnt := 0
  ph := false
  rxb := 0
  rxacc := 0
  msync := List.replicate p.syncStages false
  rsp := Response.zero
  stRaw := 0
  st := Status.zero
  csN := true
  sclk := p.spiMode.cpol
  mosi := false
  env := []
  cycle := 0

/-- The machine right after reset, in the reference configuration (R7, R36). DESIGN CHOICE, unsafe for a statement about
this state alone (notes/assumptions/1.md). -/
def State.reset : State := State.resetOf Params.ref

end Sys2Proof.Machine
end

