-- ==== Sys2Proof/Machine/Flags.lean ====
section
/-! DEFINITION. The status decoder DECODE (spec/41_status_decoder.md) and the views of the code field (R22, R80, R145). -/

namespace Sys2Proof.Machine

/-- DECODE (R140): total; error, warning and code are forced to 0 while done is 0 (R143); measure-done and the FIFO
fields are not gated (R144); no field is derived from another (R149). -/
def decodeStatus (p : Params) (w : Word32) : Status :=
  let done := w.getLsbD p.pDone
  { done := done
    measDone := w.getLsbD p.pMeasDone
    error := done && w.getLsbD p.pError
    warning := done && w.getLsbD p.pWarning
    fifoErr := w.getLsbD p.pFifoErr
    fifoDepth := w.extractLsb' p.lDepth 8
    code := if done then w.extractLsb' p.lCode 16 else 0 }

/-- The base error code, `code[3:0]` (R22, R145). -/
def Status.errBase (s : Status) : BitVec 4 := s.code.extractLsb' 0 4

/-- The seven higher-order error flags, `code[10:4]` (R22, R145). -/
def Status.errFlags (s : Status) : BitVec 7 := s.code.extractLsb' 4 7

/-- Informative (R80, R145): the error flags that are set, by name, lowest bit first. All are reported, none is ranked. -/
def Status.errorFlags (p : Params) (s : Status) : List ErrorFlag :=
  p.errFlagOrder.zipIdx.filterMap fun f => if s.errFlags.getLsbD f.2 then some f.1 else none

/-- R79: bit `i` of a status word belongs to one of the seven fields. -/
def assignedBit (p : Params) (i : Nat) : Bool :=
  p.statusFields.any fun f => f.1 ≤ i && i < f.1 + f.2

/-- Informative (R148): a reading of the base error code names; no behaviour depends on it. -/
def baseErrorName (b : BitVec 4) : String :=
  (["success", "failed", "timeout", "invalid attribute", "out-of-range", "invalid address",
    "uncommitted calibration", "invalid gain", "invalid display mode", "invalid sweep type", "invalid sweep range",
    "invalid calibration coefficient", "invalid calibration type", "trigger overflow", "invalid gain",
    "compensation failed"]).getD b.toNat ""

end Sys2Proof.Machine
end

