-- ==== Sys2Proof/Syntax.lean ====
section
/-! DEFINITION. The commands of the request port (spec/30_encoding.md R71, R83): one constructor per row of
spec/opcode_table.json. The fields a command ignores (R72) are no operands of it. -/

namespace Sys2Proof

/-- A command that the request port accepts. -/
inductive Instr where
  /-- `FRAME opcode, address, data` (R100): `cmd = 00` -/
  | frame (opcode : Byte) (address : Addr) (data : Word32)
  /-- `POLL max_attempts` (R160): `cmd = 01`. The count is an unsigned `CNT_W`-bit number (R77) -/
  | poll (maxAttempts : Nat)
deriving DecidableEq, Repr

end Sys2Proof
end

