-- ==== Sys2Proof/WellFormed.lean ====
section
/-! DEFINITION. What a legal configuration (spec/00_scope.md R8) and a legal command (spec/30_encoding.md R77, R81) are.
Each check has a name of its own. -/

namespace Sys2Proof

namespace Params

/-- R8: `CYC_US ≥ 1`, and every `T_x ≥ 1`. -/
def timesLegal (p : Params) : Bool :=
  1 ≤ p.cycUs && 1 ≤ p.tIdle && 1 ≤ p.tSetup && 1 ≤ p.tHold && 1 ≤ p.tGap && 1 ≤ p.tPoll

/-- R8, R105: `SCLK_HALF ≥ 1`, and `SYNC_STAGES ≤ SCLK_HALF - 1`. -/
def clockLegal (p : Params) : Bool :=
  1 ≤ p.sclkHalf && p.syncStages ≤ p.sclkHalf - 1

/-- R8: every status field lies inside bits 31..0. -/
def fieldsInside (p : Params) : Bool :=
  p.statusFields.all fun f => f.1 + f.2 ≤ 32

/-- R8: the seven status fields are pairwise disjoint. -/
def fieldsDisjoint (p : Params) : Bool :=
  decide (p.statusFields.Pairwise fun f g => f.1 + f.2 ≤ g.1 ∨ g.1 + g.2 ≤ f.1)

/-- R8: `CNT_W ≥ 6`. -/
def countLegal (p : Params) : Bool := 6 ≤ p.cntW

/-- R8: the configuration breaks no constraint. A configuration that breaks one is outside the spec and the
machine refuses it. -/
def legal (p : Params) : Bool :=
  p.timesLegal && p.clockLegal && p.fieldsInside && p.fieldsDisjoint && p.countLegal

end Params

namespace Instr

/-- R77: every operand fits its field of a bundle with a `cntW`-bit count. (The operands of FRAME fit by type.) -/
def fits (cntW : Nat) : Instr → Bool
  | .frame _ _ _ => true
  | .poll n => n < 2 ^ cntW

/-- R81: the command is a legal request: `POLL 0` is not. -/
def legalRequest : Instr → Bool
  | .frame _ _ _ => true
  | .poll n => n != 0

/-- A well-formed command: encodable and legal. -/
def wf (cntW : Nat) (i : Instr) : Bool := i.fits cntW && i.legalRequest

end Instr

end Sys2Proof
end

