-- ==== Sys2Proof/Decode.lean ====
section
/-! DEFINITION. The request bundle (format REQ, spec/30_encoding.md R70 to R73), the wire frame (format WIRE56, R74), the
decoder and, after it, the encoder. The bundle is a number of `58 + CNT_W` bits: `cmd` above the count above the 56
bits of the wire frame (R70: with another `CNT_W` the count field is `CNT_W` wide and `cmd` moves up to match). -/

namespace Sys2Proof

/-- Why the decoder gives no command. -/
inductive Reject where
  /-- `cmd` is `10` or `11`, a reserved code (R71, R81) -/
  | reservedCommand (cmd : Nat)
deriving DecidableEq, Repr

/-- R74: the wire frame `opcode, address, data`, opcode most significant. -/
def wireFrame (opcode : Byte) (address : Addr) (data : Word32) : WireFrame := opcode ++ address ++ data

/-- R74: the opcode of a wire frame, `W[55:48]`. -/
def opcodeOf (w : WireFrame) : Byte := w.extractLsb' 48 8
/-- R74: the address of a wire frame, `W[47:32]`. -/
def addressOf (w : WireFrame) : Addr := w.extractLsb' 32 16
/-- R74: the data of a wire frame, `W[31:0]`. -/
def dataOf (w : WireFrame) : Word32 := w.extractLsb' 0 32

/-- R70: the `cmd` field, `req[73:72]` when `CNT_W` is 16. -/
def cmdField (cntW req : Nat) : Nat := req / 2 ^ (56 + cntW) % 4
/-- R70: the `max_attempts` field, `req[71:56]` when `CNT_W` is 16. -/
def countField (cntW req : Nat) : Nat := req / 2 ^ 56 % 2 ^ cntW
/-- R70: `req[55:0]`, laid out as the wire frame. -/
def frameField (req : Nat) : WireFrame := BitVec.ofNat 56 req

/-- The decoder (R71, R72), total on every number: bits above the bundle are no wires of the port and are not read. -/
def decode (cntW req : Nat) : Except Reject Instr :=
  match cmdField cntW req with
  | 0 => .ok (.frame (opcodeOf (frameField req)) (addressOf (frameField req)) (dataOf (frameField req)))
  | 1 => .ok (.poll (countField cntW req))
  | c => .error (.reservedCommand c)

/-- R70: the bundle with the given fields; a number wider than its field is cut to it. -/
def bundle (cntW cmd count : Nat) (w : WireFrame) : Nat :=
  (cmd % 4) * 2 ^ (56 + cntW) + (count % 2 ^ cntW) * 2 ^ 56 + w.toNat

/-- The encoder: the bundle of a command, every ignored field 0 (R70, R71). -/
def encode (cntW : Nat) : Instr → Nat
  | .frame opcode address data => bundle cntW 0 0 (wireFrame opcode address data)
  | .poll n => bundle cntW 1 n 0

/-- The command that the decoder reads from a bundle numbered as spec/opcode_table.json numbers it (`CNT_W` = 16). -/
def decodeTableWord (nbits w : Nat) : Option Instr := (decode 16 (w % 2 ^ nbits)).toOption

end Sys2Proof
end

