-- ==== Sys2Proof/Machine/Operands.lean ====
section
/-! DEFINITION. What goes out on the wire and what comes in: the bytes and bits of a frame (spec/30_encoding.md R74 to
R77), the shift register (spec/40_frame_transport.md R104), and the input pins of a clock cycle. -/

namespace Sys2Proof.Machine

/-- R76: the status-read frame, `OP_STATUS_READ` with address and data 0. -/
def statusReadFrame (p : Params) : WireFrame := wireFrame p.opStatusRead 0 0

/-- R74: byte `k` of a wire frame, `W[55-8k : 48-8k]`. -/
def frameByte (w : WireFrame) (k : Nat) : Byte := w.extractLsb' (48 - 8 * k) 8

/-- R104: bit `j`, in transfer order, of byte `k`. (`k` = 7 is reached by no run: notes/assumptions/12.md.) -/
def txBit (order : BitOrder) (w : WireFrame) (k j : Nat) : Bool :=
  match order with
  | .msbFirst => w.getLsbD (55 - 8 * k - j)
  | .lsbFirst => w.getLsbD (48 - 8 * k + j)

/-- R104: one received bit enters the byte register. -/
def shiftIn (order : BitOrder) (b : Byte) (m : Bool) : Byte :=
  match order with
  | .msbFirst => b.extractLsb' 0 7 ++ BitVec.ofBool m
  | .lsbFirst => BitVec.ofBool m ++ b.extractLsb' 1 7

/-- R75, R103: one received byte enters the response at the low end. -/
def accumulate (acc : Word32) (b : Byte) : Word32 := acc.extractLsb' 0 24 ++ b

/-- R75: the response of a frame whose last four received bytes are these. -/
def response (r3 r4 r5 r6 : Byte) : Word32 := r3 ++ r4 ++ r5 ++ r6

/-- R77: the count that a `CNT_W`-bit field carries. -/
def countOperand (p : Params) (n : Nat) : Nat := n % 2 ^ p.cntW

/-- The input pins `k` clock cycles from now. -/
def pinsAt (s : State) (k : Nat) : Pins := s.env.getD k Pins.quiet

/-- What the chip drives on `miso` in the cycle `k` cycles from now: the scripted level, or a free draw (R56). -/
def misoAt (s : State) (k : Nat) : Bool := ((pinsAt s k).miso).getD (Config.misoDraw (s.cycle + k))

/-- R105: `miso_s`, the input pin seen through `SYNC_STAGES` flops. -/
def misoSynced (s : State) : Bool := (misoAt s 0 :: s.msync).getD s.params.syncStages false

/-- R28, R105: the flops of the synchroniser after this clock edge. DEDUCED, unsafe: they move on every edge
(notes/assumptions/13.md). -/
def nextSync (s : State) : List Bool := (misoAt s 0 :: s.msync).take s.params.syncStages

/-- The command on the request port in this cycle, if the client offers one (R31, R70). -/
def offered (s : State) : Option (Except Reject Instr) :=
  if (pinsAt s 0).reqValid then some (decode s.params.cntW (pinsAt s 0).req) else none

end Sys2Proof.Machine
end

