-- ==== Sys2Proof/Machine/Ops.lean ====
section
/-! DEFINITION. The shared operations of one rising edge of `clk`: the response, the transport FSM
(spec/40_frame_transport.md R103, R104), the control FSM (spec/42_poll_fsm.md R171), reset (spec/70 R220), and the
clock cycle that puts them together. Every right-hand side reads the values from before the edge (R11). The FTB has no
exception to take and none to return from (spec/60_exceptions.md R200, R207); `illegalRequest` is what stands in its
place (R202). -/

namespace Sys2Proof.Machine

/-- R29: `respond(data, done, attempts, illegal)`. -/
def respond (s : State) (data : Word32) (done : Bool) (attempts : Nat) (illegal : Bool) : State :=
  { s with rsp := ⟨data, done, attempts, illegal⟩, ctl := .resp }

/-- R202: the illegal response. No bus activity, no status change, no command register loaded. -/
def illegalRequest (s : State) : State := respond s 0 false 0 true

/-- R103: `start_frame`; the control FSM is in `C_XFER` from here on (R24, R171). -/
def startFrame (s : State) : State :=
  { s with ctl := .xfer, xs := .pre, tcnt := s.params.tIdle - 1, rxacc := 0, csN := true }

/-- R26, R171: a legal request loads the command registers and starts its (first) frame. -/
def loadCommand (s : State) (kind : Kind) (frm : WireFrame) (nmax : Nat) : State :=
  startFrame { s with kind := kind, frm := frm, nmax := nmax, att := 0 }

/-- R103: `begin_byte(k)`. -/
def beginByte (s : State) (k : Nat) : State :=
  { s with
    bitn := 0, ph := false, hcnt := s.params.sclkHalf - 1
    mosi := if s.params.spiMode.cpha then s.mosi else txBit s.params.bitOrder s.frm k 0 }

/-- R164: write-through: the raw word and its decoding are loaded together. -/
def writeStatus (s : State) (w : Word32) : State :=
  { s with stRaw := w, st := decodeStatus s.params w }

/-- R169: the attempt counter after one more attempt, `CNT_W` bits. -/
def nextAttempt (s : State) : Nat := (s.att + 1) % 2 ^ s.params.cntW

/-- R171: `frame_end(w)` when `kind` is POLL. -/
def pollAttemptEnd (s : State) (w : Word32) : State :=
  let a := nextAttempt s
  let s' := { writeStatus s w with att := a }
  if s'.st.done || a == s.nmax then respond s' w s'.st.done a false
  else { s' with ctl := .pwait, tcnt := s.params.tPoll - 1 }

/-- R103: `frame_end(resp)`, the control FSM's completion action. -/
def frameEnd (s : State) (w : Word32) : State :=
  match s.kind with
  | .frame => respond s w false 0 false
  | .poll => pollAttemptEnd s w

/-- R103: `end_byte`; `s` already holds this edge's sample in `rxb`. -/
def endByte (s : State) : State :=
  let s' := { s with rxacc := if 3 ≤ s.bidx.toNat then accumulate s.rxacc s.rxb else s.rxacc, mosi := false }
  if s.bidx.toNat < 6 then { s' with xs := .gap, tcnt := s.params.tGap - 1 }
  else { s' with xs := .hold, tcnt := s.params.tHold - 1 }

/-- R104: this edge samples `miso`. -/
def sample (s : State) : State := { s with rxb := shiftIn s.params.bitOrder s.rxb (misoSynced s) }

/-- R104: the leading edge of a bit. -/
def leadingEdge (s : State) : State :=
  let s' := { s with ph := true, sclk := !s.params.spiMode.cpol, hcnt := s.params.sclkHalf - 1 }
  if s.params.spiMode.cpha then { s' with mosi := txBit s.params.bitOrder s.frm s.bidx.toNat s.bitn.toNat }
  else sample s'

/-- R104: the trailing edge of a bit. -/
def trailingEdge (s : State) : State :=
  let s' := { s with ph := false, sclk := s.params.spiMode.cpol, hcnt := s.params.sclkHalf - 1 }
  let s'' := if s.params.spiMode.cpha then sample s' else s'
  if s.bitn.toNat < 7 then
    { s'' with
      bitn := s.bitn + 1
      mosi := if s.params.spiMode.cpha then s.mosi
              else txBit s.params.bitOrder s.frm s.bidx.toNat (s.bitn.toNat + 1) }
  else endByte s''

/-- R104: one edge in `X_SHIFT`. -/
def shiftEdge (s : State) : State :=
  if s.hcnt = 0 then (if s.ph then trailingEdge s else leadingEdge s)
  else { s with hcnt := s.hcnt - 1 }

/-- R103: the timer of a phase counts down, and `done` happens when it has run out. -/
def timed (s : State) (done : State) : State :=
  if s.tcnt = 0 then done else { s with tcnt := s.tcnt - 1 }

/-- R103: the transport FSM, one edge. -/
def transportEdge (s : State) : State :=
  match s.xs with
  | .off => s
  | .pre => timed s { s with xs := .setup, csN := false, tcnt := s.params.tSetup - 1 }
  | .setup => timed s (beginByte { s with xs := .shift, bidx := 0 } 0)
  | .shift => shiftEdge s
  | .gap => timed s (beginByte { s with xs := .shift, bidx := s.bidx + 1 } (s.bidx.toNat + 1))
  | .hold => timed s (frameEnd { s with xs := .off, csN := true } s.rxacc)

/-- R171: the two FSMs, one edge without reset; `accept` is what the edge does to a machine that is ready for a
request (R31), and a machine that is not ignores the request port (R62, R224). -/
def fsmEdge (s : State) (accept : State → State) : State :=
  match s.ctl with
  | .idle => accept s
  | .xfer => transportEdge s
  | .pwait => timed s (startFrame s)
  | .resp => { s with ctl := .idle }

/-- R36, R220: every register takes its reset value; the outside world is no register. -/
def resetRegs (s : State) : State :=
  { State.resetOf s.params with env := s.env, cycle := s.cycle }

/-- Time passes: the next cycle's pins come up. -/
def advance (s : State) : State := { s with env := s.env.tail, cycle := s.cycle + 1 }

/-- What one rising edge does to a machine of a legal configuration (R206: reset overrides everything). -/
def edge (s : State) (accept : State → State) : State :=
  advance (if (pinsAt s 0).rst then resetRegs s else { fsmEdge s accept with msync := nextSync s })

/-- One clock cycle. R8: a configuration that breaks a constraint is refused. -/
def clock (s : State) (accept : State → State) : Host.Outcome State Fault Refusal :=
  if s.params.legal then .next (edge s accept) else .refused .illegalConfiguration

/-- The clock cycle in which the client offers no request. -/
def idleCycle (s : State) : Host.Outcome State Fault Refusal := clock s id

/-- The clock cycle in which the client offers a request with a reserved command code (R81, R202). -/
def reservedCycle (s : State) : Host.Outcome State Fault Refusal := clock s illegalRequest

end Sys2Proof.Machine
end

