-- ==== Sys2Proof/Machine/Frame.lean ====
section
/-! DEFINITION. FRAME (spec/40_frame_transport.md R100). -/

namespace Sys2Proof.Machine

/-- The accept edge of FRAME (R26, R100, R103): the wire frame is loaded and the frame starts. -/
def acceptFrame (opcode : Byte) (address : Addr) (data : Word32) (s : State) : State :=
  loadCommand s .frame (wireFrame opcode address data) 0

/-- FRAME: the clock cycle in which the client offers it. A ready machine accepts it; the edges that follow send the
frame and give the response (`transportEdge`, `frameEnd`), as R103 lays them out. -/
def execFrame (opcode : Byte) (address : Addr) (data : Word32) (s : State) : Host.Outcome State Fault Refusal :=
  clock s (acceptFrame opcode address data)

end Sys2Proof.Machine
end

