-- ==== Sys2Proof/Machine/Poll.lean ====
section
/-! DEFINITION. POLL (spec/42_poll_fsm.md R160). -/

namespace Sys2Proof.Machine

/-- The accept edge of POLL (R171): the status-read frame and the budget are loaded and the first attempt starts; with
a budget of 0 it is answered by the illegal response (R167, R202). -/
def acceptPoll (maxAttempts : Nat) (s : State) : State :=
  if countOperand s.params maxAttempts = 0 then illegalRequest s
  else loadCommand s .poll (statusReadFrame s.params) (countOperand s.params maxAttempts)

/-- POLL: the clock cycle in which the client offers it. A ready machine accepts it; the edges that follow make the
attempts (`transportEdge`, `pollAttemptEnd`, the `C_PWAIT` arm of `fsmEdge`), as R171 lays them out. -/
def execPoll (maxAttempts : Nat) (s : State) : Host.Outcome State Fault Refusal :=
  clock s (acceptPoll maxAttempts)

end Sys2Proof.Machine
end

