-- ==== Sys2Proof/Machine/Dispatch.lean ====
section
/-! DEFINITION. One arm per command of the request port. -/

namespace Sys2Proof.Machine
open Sys2Proof

def exec (i : Instr) (s : State) : Host.Outcome State Fault Refusal :=
  match i with
  | .frame opcode address data => Sys2Proof.Machine.execFrame opcode address data s
  | .poll maxAttempts => Sys2Proof.Machine.execPoll maxAttempts s

end Sys2Proof.Machine
end

