-- ==== Sys2Proof/Machine/Step.lean ====
section
/-! DEFINITION. One step is one cycle of `clk` (spec/92 D1, D33). -/

namespace Sys2Proof.Machine

/-- One clock cycle: with a command offered on the request port, that command's; with a reserved code offered, the
illegal request's; else the machine's own. -/
def step (s : State) : Host.Outcome State Fault Refusal :=
  match offered s with
  | none => idleCycle s
  | some (.ok i) => exec i s
  | some (.error _) => reservedCycle s

/-- `s` with the bundle `w` offered on the request port of a ready machine: `ctl` in `C_IDLE`, `rst` low and
`req_valid` high in the present cycle (R31). The pins of later cycles stay as they are. -/
def State.withFetchWord (s : State) (nbits w : Nat) : State :=
  { s with
    ctl := .idle
    env := { pinsAt s 0 with rst := false, reqValid := true, req := w % 2 ^ nbits } :: s.env.tail }

end Sys2Proof.Machine
end

