-- ==== Sys2Proof/Machine/Timing.lean ====
section
/-! DEFINITION. The cycle counts of spec/40_frame_transport.md R102, R112 and spec/42_poll_fsm.md R163, R172, and the
table of spec/70_reset_and_hazards.md R230. No step reads them: they are what statements about runs are written in. -/

namespace Sys2Proof.Machine

/-- R102: one byte in `X_SHIFT`. -/
def byteCycles (p : Params) : Nat := 16 * p.sclkHalf

/-- R112: the frame length `F`. -/
def frameCycles (p : Params) : Nat :=
  p.tIdle + p.tSetup + 112 * p.sclkHalf + 6 * p.tGap + p.tHold

/-- R112: cycles of one frame with `cs_n` low. -/
def selectLowCycles (p : Params) : Nat := p.tSetup + 112 * p.sclkHalf + 6 * p.tGap + p.tHold

/-- R172: cycles of a POLL of `j` attempts between its accept cycle and its response cycle. -/
def pollCycles (p : Params) (j : Nat) : Nat := j * frameCycles p + (j - 1) * p.tPoll

/-- R163, R172: distance between the starts of two attempts of one POLL. -/
def attemptPitch (p : Params) : Nat := frameCycles p + p.tPoll

/-- R102: the phases of a frame in order, each with its number of cycles. -/
def framePhases (p : Params) : List (Xs × Nat) :=
  [(.pre, p.tIdle), (.setup, p.tSetup)] ++
    (List.range 7).flatMap fun k =>
      [(.shift, byteCycles p), if k < 6 then (.gap, p.tGap) else (.hold, p.tHold)]

/-- The phase that a list of phases is in at cycle `i`; `X_OFF` after its end. -/
def phaseAt : List (Xs × Nat) → Nat → Xs
  | [], _ => .off
  | (x, n) :: rest, i => if i < n then x else phaseAt rest (i - n)

/-- R102, R104: the cycle of a frame, counted from the first cycle of `X_PRE`, that ends in the sampling edge of bit `j`
of byte `k`. -/
def sampleCycle (p : Params) (k j : Nat) : Nat :=
  p.tIdle + p.tSetup + k * (byteCycles p + p.tGap) + 2 * p.sclkHalf * j +
    (if p.spiMode.cpha then 2 * p.sclkHalf else p.sclkHalf) - 1

/-- R101: the least time in microseconds that a state of the transport FSM lasts; 0 where the rule sets none. -/
def phaseUs (p : Params) : Xs → Nat
  | .off => 0
  | .pre => p.tIdleUs
  | .setup => p.tSetupUs
  | .shift => 0
  | .gap => p.tGapUs
  | .hold => p.tHoldUs

/-- R101, R163: the least time in microseconds that the phase the machine is in lasts, the wait between two attempts
among them; 0 where no rule sets one. -/
def delayUs (s : State) : Nat :=
  match s.ctl with
  | .idle => 0
  | .xfer => phaseUs s.params s.xs
  | .pwait => s.params.tPollUs
  | .resp => 0

end Sys2Proof.Machine
end

