-- ==== Sys2Proof/Machine/Command.lean ====
section
/-! DEFINITION. The commands at the level of the pseudocode of R100 and R160, as functions of the chip's draws (R107),
with time abstracted (spec/92 D33). The clock-cycle machine is stated to refine them. -/

namespace Sys2Proof.Machine

/-- R104, R105: byte `k` received by a frame whose first `X_PRE` cycle lies `start` cycles after the present one. -/
def receivedByte (s : State) (start k : Nat) : Byte :=
  (List.range 8).foldl (fun b j =>
    shiftIn s.params.bitOrder b (misoAt s (start + sampleCycle s.params k j - s.params.syncStages))) 0

/-- R75, R100: the response of that frame. -/
def frameWord (s : State) (start : Nat) : Word32 :=
  response (receivedByte s start 3) (receivedByte s start 4) (receivedByte s start 5) (receivedByte s start 6)

/-- What POLL learns: how many attempts it made, the last word, and whether that word showed done (R168). -/
structure PollResult where
  attempts : Nat
  word : Word32
  done : Bool
deriving DecidableEq, Repr

/-- R160: the loop, at attempt `a` with `left` further attempts in the budget; `w i` is the word of attempt `i`. -/
def pollLoop (p : Params) (w : Nat → Word32) : Nat → Nat → PollResult
  | 0, a => ⟨a, w a, (decodeStatus p (w a)).done⟩
  | left + 1, a => if (decodeStatus p (w a)).done then ⟨a, w a, true⟩ else pollLoop p w left (a + 1)

/-- R160: `POLL n` for `n ≥ 1`, attempts counted from 1. -/
def pollCommand (p : Params) (w : Nat → Word32) (n : Nat) : PollResult := pollLoop p w (n - 1) 1

/-- The word that attempt `a` of a POLL accepted in the present cycle receives (R163, R171). -/
def attemptWord (s : State) (a : Nat) : Word32 := frameWord s (1 + (a - 1) * attemptPitch s.params)

/-- What a POLL accepted in the present cycle learns, as a function of the chip's draws. -/
def pollOutcome (s : State) (n : Nat) : PollResult := pollCommand s.params (attemptWord s) n

/-- R105: the synchroniser's flops after the edge that ends the cycle `m` cycles from now (`m + 1 ≥ SYNC_STAGES`). -/
def syncAfter (s : State) (m : Nat) : List Bool := (List.range s.params.syncStages).map fun i => misoAt s (m - i)

/-- The registers that any frame leaves behind when it ends `m` cycles from now, its first `X_PRE` cycle `start` cycles
from now: the bus at rest (R106), the shift datapath at its last values, the machine in `C_RESP`. Every register that
this does not name is as it is in `s`. -/
def frameDone (s : State) (start m : Nat) : State :=
  { s with
    ctl := .resp
    xs := .off
    tcnt := 0
    bidx := 6
    bitn := 7
    hcnt := s.params.sclkHalf - 1
    ph := false
    rxb := receivedByte s start 6
    rxacc := frameWord s start
    msync := syncAfter s m
    csN := true
    sclk := s.params.spiMode.cpol
    mosi := false
    env := s.env.drop (m + 1)
    cycle := s.cycle + m + 1 }

end Sys2Proof.Machine
end

