-- ==== Sys2Proof/Machine/Ports.lean ====
section
/-! DEFINITION. The output ports of the FTB (spec/10_state.md R20), as functions of the state. -/

namespace Sys2Proof.Machine

/-- The levels of the output ports in one clock cycle (R20). -/
structure Outputs where
  reqReady : Bool
  busy : Bool
  rspValid : Bool
  rspData : Word32
  rspDone : Bool
  rspAttempts : Nat
  rspIllegal : Bool
  /-- `st_raw` -/
  stRaw : Word32
  /-- `st_done` to `st_code` -/
  st : Status
  stErrBase : BitVec 4
  stErrFlags : BitVec 7
  /-- `dec_done` to `dec_code` -/
  dec : Status
  decErrBase : BitVec 4
  decErrFlags : BitVec 7
  csN : Bool
  sclk : Bool
  mosi : Bool
deriving DecidableEq, Repr

/-- R31, R220: `req_ready = 1` exactly when `ctl = C_IDLE` and `rst = 0`. -/
def reqReady (s : State) : Bool := s.ctl == .idle && !(pinsAt s 0).rst

/-- R29, R220: `rsp_valid = 1` in the `C_RESP` cycle, and never in a cycle with `rst = 1`. DEDUCED, unsafe in
that cycle only (notes/assumptions/7.md). -/
def rspValid (s : State) : Bool := s.ctl == .resp && !(pinsAt s 0).rst

/-- R147: the combinational decoder over `dec_in`. -/
def decPort (s : State) : Status := decodeStatus s.params (pinsAt s 0).decIn

/-- Every output port (R20, R22, R29 to R31, R147). -/
def outputs (s : State) : Outputs where
  reqReady := reqReady s
  busy := !reqReady s
  rspValid := rspValid s
  rspData := s.rsp.data
  rspDone := s.rsp.done
  rspAttempts := s.rsp.attempts
  rspIllegal := s.rsp.illegal
  stRaw := s.stRaw
  st := s.st
  stErrBase := s.st.errBase
  stErrFlags := s.st.errFlags
  dec := decPort s
  decErrBase := (decPort s).errBase
  decErrFlags := (decPort s).errFlags
  csN := s.csN
  sclk := s.sclk
  mosi := s.mosi

end Sys2Proof.Machine
end

