-- ==== Sys2Proof/Safety.lean ====
section
/-! DEFINITION. Runs of clock cycles, and what every reachable state satisfies. -/

namespace Sys2Proof.Machine

/-- `k` clock cycles, stopping at the first that does not answer a next state. -/
def run : Nat → State → Host.Outcome State Fault Refusal
  | 0, s => .next s
  | k + 1, s =>
    match step s with
    | .next t => run k t
    | .fault r => .fault r
    | .refused r => .refused r

/-- `rst` is low in the present cycle and the `k - 1` cycles after it. -/
def NoReset (s : State) (k : Nat) : Prop := ∀ i, i < k → (pinsAt s i).rst = false

/-- The machine can accept a request in this cycle (R31). -/
def Ready (s : State) : Prop := s.params.legal = true ∧ s.ctl = .idle ∧ (pinsAt s 0).rst = false

/-- `s` with other levels on the input pins of the present cycle. -/
def State.withPins (s : State) (p : Pins) : State := { s with env := p :: s.env.tail }

/-- This cycle ends in a sampling edge of `miso` (R104, R105). -/
def Sampling (s : State) : Prop :=
  s.ctl = .xfer ∧ s.xs = .shift ∧ s.hcnt = 0 ∧ s.ph = s.params.spiMode.cpha

/-- This cycle ends an attempt of a POLL (R171). -/
def AttemptEnds (s : State) : Prop := s.ctl = .xfer ∧ s.xs = .hold ∧ s.tcnt = 0 ∧ s.kind = .poll

/-- The invariant of the machine. -/
structure State.Inv (s : State) : Prop where
  /-- R8 -/
  legal : s.params.legal = true
  /-- R23: the decoded registers equal the decoder applied to `ST_RAW` -/
  decoded : s.st = decodeStatus s.params s.stRaw
  /-- R24, R103: the control FSM is in `C_XFER` exactly while `xs` is not `X_OFF` -/
  xfer : s.ctl = .xfer ↔ s.xs ≠ .off
  /-- R25: `cs_n` is 1 in `X_OFF` and `X_PRE` and 0 in the other states -/
  select : s.csN = true ↔ s.xs = .off ∨ s.xs = .pre
  /-- R106: outside `X_SHIFT`, `sclk` is at its idle level and `mosi` is 0 -/
  rest : s.xs ≠ .shift → s.sclk = s.params.spiMode.cpol ∧ s.mosi = false
  /-- R104: `sclk` is CPOL in the first half of a bit and its opposite in the second -/
  clockHalf : s.xs = .shift → s.sclk = (s.ph ^^ s.params.spiMode.cpol)
  /-- R28: `hcnt` counts inside a half period -/
  halfCount : s.hcnt < s.params.sclkHalf
  /-- R28: `bidx` is 0..6 -/
  byteIndex : s.bidx.toNat ≤ 6
  /-- R25: `X_GAP` comes after bytes 0..5 -/
  gapIndex : s.xs = .gap → s.bidx.toNat < 6
  /-- R25: `X_HOLD` comes after byte 6 -/
  holdIndex : s.xs = .hold → s.bidx.toNat = 6
  /-- R27: the timer fits its `TCNT_W` bits -/
  timer : s.tcnt < 2 ^ s.params.tcntW
  /-- R28: one flop for each stage of the synchroniser -/
  sync : s.msync.length = s.params.syncStages
  /-- R26: the count registers fit their `CNT_W` bits -/
  counts : s.nmax < 2 ^ s.params.cntW ∧ s.att < 2 ^ s.params.cntW ∧ s.rsp.attempts < 2 ^ s.params.cntW
  /-- R169: the attempt count stays within the budget, and below it while the POLL goes on -/
  budget : s.kind = .poll → s.att ≤ s.nmax ∧ (s.ctl = .xfer ∨ s.ctl = .pwait → s.att < s.nmax)
  /-- R26, R76: a POLL sends the status-read frame and nothing else -/
  pollFrame : s.kind = .poll → s.frm = statusReadFrame s.params
  /-- R26, R171: a FRAME has no budget and never waits between attempts -/
  frameKind : s.kind = .frame → s.nmax = 0 ∧ s.att = 0 ∧ s.ctl ≠ .pwait

end Sys2Proof.Machine
end

