-- ==== Sys2Proof/Certificates/Slice0/Obligations.lean ====
section
/-! DEFINITION. The statements for the provers. Each follows the numbered rules of spec/ that its docstring names. -/

open Sys2Proof Sys2Proof.Machine

/-! ### Encodings (spec/30_encoding.md) -/

/-- R70 to R73: decoding the bundle of a command gives that command back, for every command whose operands fit their
fields, with every width of the count field. `POLL 0` is among them: it has a bundle (an illegal request, R81). -/
def Obligations.DecodeOfEncodeGivesCommand : Prop :=
  ∀ (cntW : Nat) (i : Instr), i.fits cntW = true → decode cntW (encode cntW i) = .ok i

/-- R70 to R72: what the decoder reads from a bundle, whatever its other fields hold: FRAME ignores the count, POLL
ignores the 56 bits of the wire frame, and the two reserved codes are rejected by name. -/
def Obligations.DecoderReadsOnlyUsedFields : Prop :=
  ∀ (cntW n : Nat) (w : WireFrame), n < 2 ^ cntW →
    decode cntW (bundle cntW 0 n w) = .ok (.frame (opcodeOf w) (addressOf w) (dataOf w)) ∧
    decode cntW (bundle cntW 1 n w) = .ok (.poll n) ∧
    decode cntW (bundle cntW 2 n w) = .error (.reservedCommand 2) ∧
    decode cntW (bundle cntW 3 n w) = .error (.reservedCommand 3)

/-- R74: the seven bytes of a wire frame, the bits of a byte in transfer order (R104), and the frame made again from its
three fields (R70: `req[55:0]` is laid out exactly as the wire frame). -/
def Obligations.WireFrameIsSevenBytes : Prop :=
  ∀ (op : Byte) (a : Addr) (d : Word32) (w : WireFrame),
    frameByte (wireFrame op a d) 0 = op ∧
    frameByte (wireFrame op a d) 1 = a.extractLsb' 8 8 ∧
    frameByte (wireFrame op a d) 2 = a.extractLsb' 0 8 ∧
    frameByte (wireFrame op a d) 3 = d.extractLsb' 24 8 ∧
    frameByte (wireFrame op a d) 4 = d.extractLsb' 16 8 ∧
    frameByte (wireFrame op a d) 5 = d.extractLsb' 8 8 ∧
    frameByte (wireFrame op a d) 6 = d.extractLsb' 0 8 ∧
    wireFrame (opcodeOf w) (addressOf w) (dataOf w) = w ∧
    ∀ k j, k < 7 → j < 8 →
      txBit .msbFirst w k j = (frameByte w k).getLsbD (7 - j) ∧
      txBit .lsbFirst w k j = (frameByte w k).getLsbD j

/-- R75, R103: the accumulator's four steps give the response `r3, r4, r5, r6`, first byte most significant, whatever it
held before. -/
def Obligations.AccumulatorGivesResponse : Prop :=
  ∀ (acc : Word32) (r3 r4 r5 r6 : Byte),
    accumulate (accumulate (accumulate (accumulate acc r3) r4) r5) r6 = response r3 r4 r5 r6 ∧
    (response r3 r4 r5 r6).extractLsb' 24 8 = r3 ∧ (response r3 r4 r5 r6).extractLsb' 16 8 = r4 ∧
    (response r3 r4 r5 r6).extractLsb' 8 8 = r5 ∧ (response r3 r4 r5 r6).extractLsb' 0 8 = r6

/-- R104: after 8 samples the byte register holds the received byte; its first-sampled bit is bit 7 if the bit order is
most significant first, or bit 0 otherwise; nothing is left of what it held before. -/
def Obligations.EightSamplesFillTheByte : Prop :=
  ∀ (b : Byte) (m : Nat → Bool) (j : Nat), j < 8 →
    ((List.range 8).foldl (fun r i => shiftIn .msbFirst r (m i)) b).getLsbD (7 - j) = m j ∧
    ((List.range 8).foldl (fun r i => shiftIn .lsbFirst r (m i)) b).getLsbD j = m j

/-- R70, R71, and the requests of V-F1, V-P3, V-X1 and V-X2 (spec/95_test_vectors.md): a few words written out. -/
def Obligations.WrittenOutRequestsDecode : Prop :=
  decodeTableWord 80 0x00000123456789ABCDE = some (.frame 0x12 0x3456 0x789ABCDE) ∧
  decodeTableWord 80 0x1000300000000000000 = some (.poll 3) ∧
  decodeTableWord 80 0x2000000000000000000 = none ∧
  decodeTableWord 80 0x3000501000200000003 = none

/-! ### The status decoder (spec/41_status_decoder.md) -/

/-- R142: the done output equals the done bit of the word, for every input. -/
def Obligations.StatusDoneIsTheDoneBit : Prop :=
  ∀ (p : Params) (w : Word32), (decodeStatus p w).done = w.getLsbD p.pDone

/-- R140: DECODE bit by bit, its two extreme words, and its worked example in the REF layout. -/
def Obligations.StatusFieldsBitByBit : Prop :=
  (∀ (p : Params) (w : Word32) (i : Nat),
    (decodeStatus p w).done = w.getLsbD p.pDone ∧
    (decodeStatus p w).measDone = w.getLsbD p.pMeasDone ∧
    (decodeStatus p w).fifoErr = w.getLsbD p.pFifoErr ∧
    (decodeStatus p w).fifoDepth.getLsbD i = (decide (i < 8) && w.getLsbD (p.lDepth + i)) ∧
    (decodeStatus p w).error = (w.getLsbD p.pDone && w.getLsbD p.pError) ∧
    (decodeStatus p w).warning = (w.getLsbD p.pDone && w.getLsbD p.pWarning) ∧
    (decodeStatus p w).code.getLsbD i = (decide (i < 16) && w.getLsbD p.pDone && w.getLsbD (p.lCode + i)) ∧
    (decodeStatus p w).errBase.getLsbD i = (decide (i < 4) && (decodeStatus p w).code.getLsbD i) ∧
    (decodeStatus p w).errFlags.getLsbD i = (decide (i < 7) && (decodeStatus p w).code.getLsbD (4 + i))) ∧
  (∀ p : Params, decodeStatus p 0 = ⟨false, false, false, false, false, 0, 0⟩) ∧
  (∀ p : Params, p.legal = true →
    decodeStatus p 0xFFFFFFFF = ⟨true, true, true, true, true, 0xFF, 0xFFFF⟩) ∧
  decodeStatus Params.ref 0x0C000001 = ⟨true, false, true, false, false, 0, 1⟩ ∧
  (decodeStatus Params.ref 0x0C000001).errBase = 1 ∧ (decodeStatus Params.ref 0x0C000001).errFlags = 0

/-- R143: while done is 0, the error flag, the warning flag and the whole code are 0, and with the code its two
sub-fields; R144: measure-done and the FIFO fields are as their bits say. -/
def Obligations.StatusGatedWhileNotDone : Prop :=
  ∀ (p : Params) (w : Word32), w.getLsbD p.pDone = false →
    (decodeStatus p w).error = false ∧ (decodeStatus p w).warning = false ∧ (decodeStatus p w).code = 0 ∧
    (decodeStatus p w).errBase = 0 ∧ (decodeStatus p w).errFlags = 0 ∧
    (decodeStatus p w).measDone = w.getLsbD p.pMeasDone ∧ (decodeStatus p w).fifoErr = w.getLsbD p.pFifoErr ∧
    (decodeStatus p w).fifoDepth = w.extractLsb' p.lDepth 8

/-- R79: every legal layout leaves 3 bits of the 32 unassigned, and the decoder ignores them; R146: it passes
`code[15:11]` through inside `code` when done is 1, but not into either sub-field. -/
def Obligations.UnassignedBitsNeverMatter : Prop :=
  ∀ p : Params, p.legal = true →
    ((List.range 32).filter fun i => !assignedBit p i).length = 3 ∧
    (∀ w w' : Word32, (∀ i, i < 32 → assignedBit p i = true → w.getLsbD i = w'.getLsbD i) →
      decodeStatus p w = decodeStatus p w') ∧
    (∀ w : Word32, ∀ i, 11 ≤ i → i < 16 → w.getLsbD p.pDone = true →
      (decodeStatus p w).code.getLsbD i = w.getLsbD (p.lCode + i)) ∧
    (∀ s s' : Status, (∀ i, i < 11 → s.code.getLsbD i = s'.code.getLsbD i) →
      s.errBase = s'.errBase ∧ s.errFlags = s'.errFlags)

/-- The MODEL'S OWN list of the names of the error flags that are set (`Status.errorFlags`, read by no port and no step:
notes/assumptions/16.md, DESIGN CHOICE) holds every flag whose bit is set, in whatever combination, and no other. The
spec itself says only that DECODE returns the seven bits at once (R145), and makes their order a parameter (R80). -/
def Obligations.EverySetErrorFlagIsReported : Prop :=
  ∀ (p : Params) (s : Status) (f : ErrorFlag),
    f ∈ s.errorFlags p ↔ ∃ i, p.errFlagOrder[i]? = some f ∧ s.errFlags.getLsbD i = true

/-! ### Reset (spec/10_state.md R36, spec/70_reset_and_hazards.md) -/

/-- R36: the reset value of every register, in every configuration. -/
def Obligations.ResetStateHoldsTheTableValues : Prop :=
  ∀ p : Params, ∃ s, s = State.resetOf p ∧
    s.ctl = .idle ∧ s.xs = .off ∧ s.kind = .frame ∧ s.frm = 0 ∧ s.nmax = 0 ∧ s.att = 0 ∧ s.tcnt = 0 ∧ s.bidx = 0 ∧
    s.bitn = 0 ∧ s.hcnt = 0 ∧ s.ph = false ∧ s.rxb = 0 ∧ s.rxacc = 0 ∧ s.msync = List.replicate p.syncStages false ∧
    s.rsp = ⟨0, false, 0, false⟩ ∧ rspValid s = false ∧ s.stRaw = 0 ∧
    s.st = ⟨false, false, false, false, false, 0, 0⟩ ∧ s.csN = true ∧ s.sclk = p.spiMode.cpol ∧ s.mosi = false ∧
    reqReady s = true

/-- R220: in every cycle with `rst = 1`, whatever the machine is doing and whatever is offered, the next state of every
register is its reset value, no request is accepted and there is no response; the first cycle with `rst = 0` is ready. -/
def Obligations.ResetPinLoadsEveryResetValue : Prop :=
  ∀ s : State, s.params.legal = true → (pinsAt s 0).rst = true →
    reqReady s = false ∧ rspValid s = false ∧
    ∃ t, step s = .next t ∧ t = { State.resetOf s.params with env := s.env.tail, cycle := s.cycle + 1 } ∧
      ((pinsAt s 1).rst = false → t.ctl = .idle ∧ reqReady t = true)

/-- R221: a reset in the middle of a command abandons it: from the next cycle on `cs_n` is high and `sclk` idle, and no
response is given for it: while no new request is offered, `rsp_valid` never rises. -/
def Obligations.ResetAbandonsTheCommand : Prop :=
  ∀ (s : State) (k : Nat), s.params.legal = true → (pinsAt s 0).rst = true →
    (∀ i, 1 ≤ i → i ≤ k → (pinsAt s i).reqValid = false) →
    ∃ u, run (k + 1) s = .next u ∧ rspValid u = false ∧ u.csN = true ∧ u.sclk = s.params.spiMode.cpol ∧
      u.mosi = false ∧ u.stRaw = 0 ∧ u.st = ⟨false, false, false, false, false, 0, 0⟩

/-! ### The request port (spec/10_state.md R31, spec/60_exceptions.md R202) -/

/-- R31: `req_ready = 1` exactly when `ctl = C_IDLE` and `rst = 0`; `busy` is its negation; the command offered in a
ready cycle is the one that is run; while `req_ready = 0` the machine ignores `req_valid` and `req`. -/
def Obligations.ReadyExactlyWhenIdle : Prop :=
  ∀ s : State,
    ((outputs s).reqReady = true ↔ s.ctl = .idle ∧ (pinsAt s 0).rst = false) ∧
    (outputs s).busy = !(outputs s).reqReady ∧
    (∀ i, (outputs s).reqReady = true → (pinsAt s 0).reqValid = true →
      decode s.params.cntW (pinsAt s 0).req = .ok i → step s = exec i s) ∧
    ((outputs s).reqReady = false → ∀ (v : Bool) (r : Nat),
      step (s.withPins { pinsAt s 0 with reqValid := v, req := r }) = step s)

/-- All three clauses are the MODEL'S OWN. The step of a machine whose request port offers a bundle that decodes to `i`
is `exec i`, since `exec` is the cycle in which the command is offered (notes/assumptions/6.md, DEDUCED). The state that
`withFetchWord` makes is such a machine, its count field the table's 16 bits (notes/assumptions/5.md, DEDUCED). What
every step adds is that one clock cycle of the script of the pins has passed (notes/assumptions/3.md and 4.md, DESIGN
CHOICE) and that the parameters stay. -/
def Obligations.StepRunsTheOfferedCommand : Prop :=
  (∀ (s : State) (i : Instr), (pinsAt s 0).reqValid = true → decode s.params.cntW (pinsAt s 0).req = .ok i →
    step s = exec i s) ∧
  (∀ (s : State) (nbits w : Nat) (i : Instr), s.params.cntW = 16 → decodeTableWord nbits w = some i →
    step (s.withFetchWord nbits w) = exec i (s.withFetchWord nbits w)) ∧
  (∀ s t : State, step s = .next t → t.params = s.params ∧ t.env = s.env.tail ∧ t.cycle = s.cycle + 1)

/-- R24, R31: a ready machine to which nothing is offered keeps every register (the synchroniser's flops move). -/
def Obligations.IdleCycleKeepsEveryRegister : Prop :=
  ∀ s : State, Ready s → (pinsAt s 0).reqValid = false →
    step s = .next { s with msync := nextSync s, env := s.env.tail, cycle := s.cycle + 1 }

/-- R26, R103: the accept edge of FRAME, for every operand and every ready machine: the command registers are loaded,
the frame starts, and nothing else changes. -/
def Obligations.FrameIsAccepted : Prop :=
  ∀ (s : State) (op : Byte) (a : Addr) (d : Word32), Ready s →
    exec (.frame op a d) s = .next { s with
      kind := .frame, frm := op ++ a ++ d, nmax := 0, att := 0
      ctl := .xfer, xs := .pre, tcnt := s.params.tIdle - 1, rxacc := 0, csN := true
      msync := nextSync s, env := s.env.tail, cycle := s.cycle + 1 }

/-- R26, R171: the accept edge of POLL, for every legal budget and every ready machine: the status-read frame and the
budget are loaded, the first attempt starts, and nothing else changes. -/
def Obligations.PollIsAccepted : Prop :=
  ∀ (s : State) (n : Nat), Ready s → 1 ≤ n → n < 2 ^ s.params.cntW →
    exec (.poll n) s = .next { s with
      kind := .poll, frm := s.params.opStatusRead ++ (0 : Addr) ++ (0 : Word32), nmax := n, att := 0
      ctl := .xfer, xs := .pre, tcnt := s.params.tIdle - 1, rxacc := 0, csN := true
      msync := nextSync s, env := s.env.tail, cycle := s.cycle + 1 }

/-- R167: `POLL 0` is answered with the illegal response: no frame, no status change. -/
def Obligations.PollZeroIsIllegal : Prop :=
  ∀ s : State, Ready s →
    exec (.poll 0) s = .next { s with
      ctl := .resp, rsp := ⟨0, false, 0, true⟩
      msync := nextSync s, env := s.env.tail, cycle := s.cycle + 1 }

/-- R202: an illegal request (`cmd` 10 or 11, or `cmd` 01 with `max_attempts` 0) accepted in cycle `c0`: the illegal
response in `c1`, ready again in `c2`, and no register but the response and `ctl` changes: no bus activity, no status
change, no command register loaded. -/
def Obligations.IllegalRequestsGetTheIllegalResponse : Prop :=
  ∀ s : State, Ready s → NoReset s 3 → (pinsAt s 0).reqValid = true →
    (cmdField s.params.cntW (pinsAt s 0).req = 2 ∨ cmdField s.params.cntW (pinsAt s 0).req = 3 ∨
      (cmdField s.params.cntW (pinsAt s 0).req = 1 ∧ countField s.params.cntW (pinsAt s 0).req = 0)) →
    ∃ t u, step s = .next t ∧
      t = { s with
        ctl := .resp, rsp := ⟨0, false, 0, true⟩
        msync := nextSync s, env := s.env.tail, cycle := s.cycle + 1 } ∧
      rspValid t = true ∧
      step t = .next u ∧ rspValid u = false ∧ reqReady u = true ∧
      u = { t with ctl := .idle, msync := nextSync t, env := t.env.tail, cycle := t.cycle + 1 }

/-! ### FRAME (spec/40_frame_transport.md) -/

/-- R107: FRAME's result as a function of the seven draws, and what it leaves: a FRAME accepted by any ready machine and
not reset is answered after `F` cycles with `r3, r4, r5, r6` unchanged (`frameWord`), whatever the chip sends; the
status registers are as they were (R109), the bus is at rest, and the next cycle is ready again. -/
def Obligations.FrameAnswersTheReceivedBytes : Prop :=
  ∀ (s : State) (op : Byte) (a : Addr) (d : Word32), Ready s → NoReset s (frameCycles s.params + 3) →
    ∃ t u v, exec (.frame op a d) s = .next t ∧
      run (frameCycles s.params) t = .next u ∧
      u = { frameDone s 1 (frameCycles s.params) with
        kind := .frame, frm := wireFrame op a d, nmax := 0, att := 0
        rsp := ⟨response (receivedByte s 1 3) (receivedByte s 1 4) (receivedByte s 1 5) (receivedByte s 1 6),
          false, 0, false⟩ } ∧
      rspValid u = true ∧
      step u = .next v ∧ rspValid v = false ∧ reqReady v = true ∧ v.rsp = u.rsp ∧ v.st = s.st ∧ v.stRaw = s.stRaw

/-- R112, with R102: a FRAME accepted in `c0` is in `X_PRE` to `X_HOLD` during `c1` to `cF`, each phase for its exact
number of cycles; `rsp_valid = 1` in `c(F+1)`; `req_ready = 1` again from `c(F+2)`; `cs_n = 0` for
`T_SETUP + 112 * SCLK_HALF + 6 * T_GAP + T_HOLD` cycles; `sclk` rests and `mosi` is 0 outside the bytes. -/
def Obligations.FrameKeepsItsSchedule : Prop :=
  ∀ (s : State) (op : Byte) (a : Addr) (d : Word32), s.Inv → Ready s → NoReset s (frameCycles s.params + 3) →
    ∃ t, exec (.frame op a d) s = .next t ∧
      (∀ i, i < frameCycles s.params → ∃ u, run i t = .next u ∧
        u.ctl = .xfer ∧ u.xs = phaseAt (framePhases s.params) i ∧ u.xs ≠ .off ∧
        (u.csN = false ↔ s.params.tIdle ≤ i) ∧
        (u.xs ≠ .shift → u.sclk = s.params.spiMode.cpol ∧ u.mosi = false) ∧
        rspValid u = false ∧ reqReady u = false) ∧
      (∃ u v, run (frameCycles s.params) t = .next u ∧ rspValid u = true ∧ u.csN = true ∧
        step u = .next v ∧ reqReady v = true) ∧
      frameCycles s.params =
        s.params.tIdle + s.params.tSetup + 112 * s.params.sclkHalf + 6 * s.params.tGap + s.params.tHold ∧
      frameCycles s.params - s.params.tIdle =
        s.params.tSetup + 112 * s.params.sclkHalf + 6 * s.params.tGap + s.params.tHold ∧
      frameCycles Params.ref = 184 ∧ selectLowCycles Params.ref = 144

/-- R74, R100, R104: from any state that meets the invariant, a FRAME puts the bits of its seven bytes on `mosi`, byte 0
first: in the cycle that ends in the
sampling edge of bit `j` of byte `k`, `cs_n` is low, `mosi` is that bit, and the edge is the leading one when CPHA is 0
and the trailing one when CPHA is 1. -/
def Obligations.FrameSendsItsBits : Prop :=
  ∀ (s : State) (op : Byte) (a : Addr) (d : Word32) (k j : Nat),
    s.Inv → Ready s → NoReset s (frameCycles s.params + 1) → k < 7 → j < 8 →
    ∃ t u v, exec (.frame op a d) s = .next t ∧ run (sampleCycle s.params k j) t = .next u ∧ step u = .next v ∧
      Sampling u ∧ u.bidx.toNat = k ∧ u.bitn.toNat = j ∧
      u.mosi = txBit s.params.bitOrder (wireFrame op a d) k j ∧ u.csN = false ∧
      u.sclk = (s.params.spiMode.cpol ^^ s.params.spiMode.cpha) ∧ v.sclk = !u.sclk

/-- R109: FRAME never writes the status registers, even when its opcode equals `OP_STATUS_READ`: in every cycle from its
acceptance to its response they are as before. -/
def Obligations.FrameNeverWritesStatus : Prop :=
  ∀ (s : State) (op : Byte) (a : Addr) (d : Word32) (i : Nat),
    Ready s → NoReset s (frameCycles s.params + 1) → i ≤ frameCycles s.params →
    ∃ t u, exec (.frame op a d) s = .next t ∧ run i t = .next u ∧ u.stRaw = s.stRaw ∧ u.st = s.st

/-! ### POLL (spec/42_poll_fsm.md) -/

/-- R168, R172 (its cycle counts in REF among them): a legal POLL accepted by any ready machine and not reset makes `j = min(k, n)` attempts, `k` the first
attempt whose word shows done, and is answered after `j*F + (j-1)*T_POLL` cycles: the data is the raw word of the last
attempt, done its done bit, the attempts `j`, illegal 0; the status registers hold that word and its decoding; every
register that is not named is as it was. -/
def Obligations.PollAnswersTheLastWord : Prop :=
  (pollCycles Params.ref 1 + 1 = 185 ∧ pollCycles Params.ref 2 + 1 = 394 ∧ pollCycles Params.ref 3 + 1 = 603 ∧
    pollCycles Params.ref 40 + 1 = 8336) ∧
  ∀ (s : State) (n : Nat), Ready s → 1 ≤ n → n < 2 ^ s.params.cntW →
    NoReset s (pollCycles s.params n + 3) →
    ∃ j t u v, 1 ≤ j ∧ j ≤ n ∧
      (∀ i, 1 ≤ i → i < j → (decodeStatus s.params (attemptWord s i)).done = false) ∧
      ((decodeStatus s.params (attemptWord s j)).done = true ∨ j = n) ∧
      exec (.poll n) s = .next t ∧
      run (j * frameCycles s.params + (j - 1) * s.params.tPoll) t = .next u ∧
      u = { frameDone s (1 + (j - 1) * attemptPitch s.params) (pollCycles s.params j) with
        kind := .poll, frm := statusReadFrame s.params, nmax := n, att := j
        rsp := ⟨attemptWord s j, (decodeStatus s.params (attemptWord s j)).done, j, false⟩
        stRaw := attemptWord s j, st := decodeStatus s.params (attemptWord s j) } ∧
      rspValid u = true ∧
      step u = .next v ∧ rspValid v = false ∧ reqReady v = true ∧ v.rsp = u.rsp ∧ v.st = u.st ∧ v.stRaw = u.stRaw

/-- R161, R163, R170: the bus during a POLL: attempt after attempt, each one frame with its own idle phase, `T_POLL`
cycles between the end of one frame and the start of the next, none before the first and none after the last; between
two attempts `cs_n` is high for `T_POLL + T_IDLE` cycles; no response and no acceptance until the end. -/
def Obligations.PollKeepsItsSchedule : Prop :=
  ∀ (s : State) (n : Nat), Ready s → 1 ≤ n → n < 2 ^ s.params.cntW →
    NoReset s (pollCycles s.params n + 2) →
    ∃ t, exec (.poll n) s = .next t ∧
      ∀ i, i < pollCycles s.params (pollOutcome s n).attempts → ∃ u, run i t = .next u ∧
        u.ctl = (if i % attemptPitch s.params < frameCycles s.params then .xfer else .pwait) ∧
        u.xs = phaseAt (framePhases s.params) (i % attemptPitch s.params) ∧
        (u.csN = false ↔
          s.params.tIdle ≤ i % attemptPitch s.params ∧ i % attemptPitch s.params < frameCycles s.params) ∧
        u.att = i / attemptPitch s.params + (if i % attemptPitch s.params < frameCycles s.params then 0 else 1) ∧
        rspValid u = false ∧ reqReady u = false

/-- R72, R76, R160: every frame of a POLL carries `OP_STATUS_READ`, address 0 and data 0: in the sampling cycle of bit
`j` of byte `k` of each of its attempts, `mosi` is that bit of the status-read frame. -/
def Obligations.PollSendsStatusReadFrames : Prop :=
  ∀ (s : State) (n a k j : Nat), Ready s → 1 ≤ n → n < 2 ^ s.params.cntW →
    NoReset s (pollCycles s.params n + 2) →
    a < (pollOutcome s n).attempts → k < 7 → j < 8 →
    ∃ t u, exec (.poll n) s = .next t ∧
      run (a * attemptPitch s.params + sampleCycle s.params k j) t = .next u ∧
      Sampling u ∧ u.bidx.toNat = k ∧ u.bitn.toNat = j ∧ u.csN = false ∧
      u.mosi = txBit s.params.bitOrder (wireFrame s.params.opStatusRead 0 0) k j

/-- R161, R162: the loop of the pseudocode stops at the first attempt that shows done, or at the end of the budget, and
looks at nothing but done. -/
def Obligations.PollLoopStopsAtDoneOrBudget : Prop :=
  ∀ (p : Params) (w : Nat → Word32) (n : Nat), 1 ≤ n →
    1 ≤ (pollCommand p w n).attempts ∧ (pollCommand p w n).attempts ≤ n ∧
    (∀ i, 1 ≤ i → i < (pollCommand p w n).attempts → (decodeStatus p (w i)).done = false) ∧
    ((decodeStatus p (w (pollCommand p w n).attempts)).done = true ∨ (pollCommand p w n).attempts = n) ∧
    (pollCommand p w n).word = w (pollCommand p w n).attempts ∧
    (pollCommand p w n).done = (decodeStatus p (w (pollCommand p w n).attempts)).done

/-- R165: a POLL that never sees done ends after `n` attempts with done 0 and its attempts counted; error, warning and
code are cleared to "unknown", and measure-done and the FIFO fields are as decoded from the last word. -/
def Obligations.ExhaustedPollClearsToUnknown : Prop :=
  ∀ (s : State) (n : Nat), Ready s → 1 ≤ n → n < 2 ^ s.params.cntW →
    NoReset s (pollCycles s.params n + 2) →
    (∀ i, 1 ≤ i → i ≤ n → (attemptWord s i).getLsbD s.params.pDone = false) →
    ∃ t u, exec (.poll n) s = .next t ∧ run (pollCycles s.params n) t = .next u ∧ rspValid u = true ∧
      u.rsp = ⟨attemptWord s n, false, n, false⟩ ∧ u.stRaw = attemptWord s n ∧
      u.st.done = false ∧ u.st.error = false ∧ u.st.warning = false ∧ u.st.code = 0 ∧
      u.st.measDone = (attemptWord s n).getLsbD s.params.pMeasDone ∧
      u.st.fifoErr = (attemptWord s n).getLsbD s.params.pFifoErr ∧
      u.st.fifoDepth = (attemptWord s n).extractLsb' s.params.lDepth 8

/-- R166: `POLL 1` is legal: exactly one status-read frame, no wait, and the response. -/
def Obligations.PollOnceChecksOnce : Prop :=
  ∀ s : State, Ready s → NoReset s (frameCycles s.params + 2) →
    ∃ t u, exec (.poll 1) s = .next t ∧
      (∀ i, i < frameCycles s.params → ∃ x, run i t = .next x ∧ x.ctl = .xfer ∧
        x.frm = statusReadFrame s.params ∧ x.xs = phaseAt (framePhases s.params) i) ∧
      run (frameCycles s.params) t = .next u ∧ rspValid u = true ∧
      u.rsp = ⟨attemptWord s 1, (attemptWord s 1).getLsbD s.params.pDone, 1, false⟩

/-- R164, R171: write-through: the edge that ends an attempt's frame loads `ST_RAW` with its word and the decoded
registers with that word's decoding, whether or not it ends the POLL, and counts the attempt; it answers the POLL on
done or at the end of the budget, and else waits `T_POLL` cycles. -/
def Obligations.EveryAttemptWritesStatusThrough : Prop :=
  ∀ s : State, s.params.legal = true → (pinsAt s 0).rst = false → AttemptEnds s →
    ∃ t, step s = .next t ∧
      t.stRaw = s.rxacc ∧ t.st = decodeStatus s.params s.rxacc ∧
      t.att = (s.att + 1) % 2 ^ s.params.cntW ∧ t.xs = .off ∧ t.csN = true ∧
      (((decodeStatus s.params s.rxacc).done = true ∨ t.att = s.nmax) →
        t.ctl = .resp ∧ t.rsp = ⟨s.rxacc, (decodeStatus s.params s.rxacc).done, t.att, false⟩) ∧
      (((decodeStatus s.params s.rxacc).done = false ∧ t.att ≠ s.nmax) →
        t.ctl = .pwait ∧ t.tcnt = s.params.tPoll - 1 ∧ t.rsp = s.rsp)

/-! ### What holds of every step -/

/-- R21: only the end of a POLL attempt and reset write the status registers. -/
def Obligations.OnlyAttemptsAndResetWriteStatus : Prop :=
  ∀ s t : State, step s = .next t → (pinsAt s 0).rst = false → ¬ AttemptEnds s →
    t.stRaw = s.stRaw ∧ t.st = s.st

/-- R29: `rsp_valid` is a pulse of the `C_RESP` cycle, which is followed by `C_IDLE`, and the other response registers
keep their values until the next response (R220: in a cycle with `rst = 1` there is no pulse). -/
def Obligations.ResponseHeldUntilTheNext : Prop :=
  ∀ s t : State, step s = .next t → (pinsAt s 0).rst = false →
    (rspValid s = true ↔ s.ctl = .resp) ∧
    (s.ctl = .resp → t.ctl = .idle) ∧
    (t.ctl ≠ .resp → t.rsp = s.rsp)

/-- R26, R62: the command registers are held until the command ends; only the end of an attempt counts. -/
def Obligations.CommandRegistersHeld : Prop :=
  ∀ s t : State, step s = .next t → (pinsAt s 0).rst = false → s.ctl ≠ .idle →
    t.kind = s.kind ∧ t.frm = s.frm ∧ t.nmax = s.nmax ∧ (¬ AttemptEnds s → t.att = s.att)

/-- R62, R224: what the client puts on the request port while a command is in progress has no effect on it: two machines
in the same state whose pins differ only in `req_valid` and `req`, and only in cycles in which they are not idle, go
through the same states, over any number of commands: in each cycle either the pins agree, or they differ in these two
alone and the machine is not idle. -/
def Obligations.BusyRequestsHaveNoEffect : Prop :=
  ∀ (s : State) (env : List Pins) (k : Nat),
    (∀ i, i < k →
      pinsAt { s with env := env } i = pinsAt s i ∨
      ((∃ v r, pinsAt { s with env := env } i = { pinsAt s i with reqValid := v, req := r }) ∧
        ∀ u, run i s = .next u → u.ctl ≠ .idle)) →
    ∀ u, run k s = .next u → run k { s with env := env } = .next { u with env := env.drop k }

/-- R169: at the end of an attempt the counter rises by exactly 1 and stays within the budget: it never wraps. -/
def Obligations.AttemptCounterNeverWraps : Prop :=
  ∀ s t : State, s.Inv → step s = .next t → (pinsAt s 0).rst = false → AttemptEnds s →
    t.att = s.att + 1 ∧ t.att ≤ t.nmax

/-- R200, R8: in a legal configuration every cycle of every run answers a next state, with the parameters as they are;
an illegal configuration is refused in every cycle. -/
def Obligations.LegalMachineNeverStops : Prop :=
  (∀ (s : State) (k : Nat), s.params.legal = true →
    ∃ t, run k s = .next t ∧ t.params = s.params ∧ t.cycle = s.cycle + k ∧ t.env = s.env.drop k) ∧
  (∀ s : State, s.params.legal = false → step s = .refused .illegalConfiguration)

/-- R36: the reset state of every legal configuration meets the invariant, and the model's reset state is one (that it
is built in the reference configuration is the model's choice: notes/assumptions/1.md). -/
def Obligations.ResetStateMeetsTheInvariant : Prop :=
  State.reset = State.resetOf Params.ref ∧ State.reset.Inv ∧ ∀ p : Params, p.legal = true → (State.resetOf p).Inv

/-- R23, R24, R25, R27, R28, R103, R106, R169: the invariant of the machine is kept by every step, with anything on the
input pins. -/
def Obligations.StepKeepsTheInvariant : Prop :=
  ∀ s t : State, s.Inv → step s = .next t → t.Inv

/-- R106: outside `X_SHIFT`, `mosi` is 0 and `sclk` at its idle level; `cs_n` is 1 in `X_OFF` and `X_PRE` and 0 in
`X_SETUP`, `X_GAP` and `X_HOLD`; `sclk` never toggles while `cs_n = 1`. -/
def Obligations.ClockRestsOutsideTheBytes : Prop :=
  ∀ s t : State, s.Inv → step s = .next t →
    (s.xs ≠ .shift → s.mosi = false ∧ s.sclk = s.params.spiMode.cpol) ∧
    (s.xs = .off ∨ s.xs = .pre → s.csN = true) ∧
    (s.xs = .setup ∨ s.xs = .gap ∨ s.xs = .hold → s.csN = false) ∧
    (s.csN = true → t.sclk = s.sclk)

/-- R101, R102, R221: before `cs_n` falls it has been high for at least `T_IDLE` cycles, in every run that does not start
inside an idle phase, whatever happens in it, resets included. -/
def Obligations.SelectHighBeforeItFalls : Prop :=
  ∀ (s : State) (n : Nat) (u v : State), s.Inv → s.xs ≠ .pre →
    run n s = .next u → step u = .next v → u.csN = true → v.csN = false →
    s.params.tIdle ≤ n ∧
    ∀ i x, n + 1 ≤ i + s.params.tIdle → i ≤ n → run i s = .next x → x.csN = true

/-- R105: the level of `miso` matters only on a sampling edge: in any other cycle, and with a synchroniser in every
cycle, it changes nothing but the synchroniser's flops. -/
def Obligations.MisoMattersOnlyWhenSampled : Prop :=
  ∀ (s t : State) (m : Option Bool), step s = .next t → (¬ Sampling s ∨ 0 < s.params.syncStages) →
    ∃ t', step (s.withPins { pinsAt s 0 with miso := m }) = .next t' ∧ t' = { t with msync := t'.msync }

/-- R147: all nine outputs of the decoder port follow `dec_in` in the same cycle, the two sub-fields of the code among
them, and the port holds no state: its level changes no step. -/
def Obligations.DecoderPortHasNoState : Prop :=
  ∀ (s : State) (w : Word32),
    (outputs (s.withPins { pinsAt s 0 with decIn := w })).dec = decodeStatus s.params w ∧
    (outputs (s.withPins { pinsAt s 0 with decIn := w })).decErrBase =
      (decodeStatus s.params w).code.extractLsb' 0 4 ∧
    (outputs (s.withPins { pinsAt s 0 with decIn := w })).decErrFlags =
      (decodeStatus s.params w).code.extractLsb' 4 7 ∧
    step (s.withPins { pinsAt s 0 with decIn := w }) = step s

/-- R206: acceptance and response never share a cycle. -/
def Obligations.AcceptanceAndResponseNeverMeet : Prop :=
  ∀ s : State, ¬ ((outputs s).reqReady = true ∧ (outputs s).rspValid = true)

/-- R59, R200: a machine that is busy with a command does not come back to `C_IDLE`, where the next command is accepted,
before it has given the response of that command, unless it is reset. -/
def Obligations.EveryCommandIsAnsweredBeforeTheNext : Prop :=
  ∀ (s u : State) (n : Nat), s.ctl ≠ .idle → NoReset s n → run n s = .next u → u.ctl = .idle →
    ∃ i x, i < n ∧ run i s = .next x ∧ rspValid x = true

/-- R60: in the cycle of the response the bus activity is over and `cs_n = 1`. -/
def Obligations.ResponseComesAfterTheBusActivity : Prop :=
  ∀ s : State, s.Inv → (outputs s).rspValid = true →
    s.xs = .off ∧ s.csN = true ∧ s.sclk = s.params.spiMode.cpol ∧ s.mosi = false

/-- R101, R163, R228: on every clock of `f` cycles a microsecond, `f` at most `CYC_US`, the machine keeps the delays in
microseconds. Every phase of a frame has at least the cycles of its bound. Whenever a step brings the machine into a
timed phase, `C_PWAIT` among them, it stays in it, the bus at rest and `cs_n` as it was on entry, for at least that
time, unless it is reset. And before `cs_n` falls it has been high for at least `T_IDLE_US`, in every run that does not
start inside an idle phase. (Time is counted in cycles; that the clock is no faster than `CYC_US` says is the
integrator's duty, here the premise `f ≤ CYC_US`: notes/assumptions/15.md.) -/
def Obligations.DelaysMeetTheirMicroseconds : Prop :=
  (∀ (p : Params) (f : Nat) (x : Xs) (n : Nat), f ≤ p.cycUs → (x, n) ∈ framePhases p → phaseUs p x * f ≤ n) ∧
  (∀ (s u : State) (f i : Nat), s.Inv → f ≤ s.params.cycUs → step s = .next u →
    (u.ctl ≠ s.ctl ∨ u.xs ≠ s.xs) → i < delayUs u * f → NoReset u i →
    ∃ w, run i u = .next w ∧ w.ctl = u.ctl ∧ w.xs = u.xs ∧ w.csN = u.csN ∧
      w.sclk = s.params.spiMode.cpol ∧ w.mosi = false) ∧
  (∀ (s : State) (f n : Nat) (u v : State), s.Inv → f ≤ s.params.cycUs → s.xs ≠ .pre →
    run n s = .next u → step u = .next v → u.csN = true → v.csN = false →
    s.params.tIdleUs * f ≤ n ∧
    ∀ i x, n + 1 ≤ i + s.params.tIdleUs * f → i ≤ n → run i s = .next x → x.csN = true)

/-- R20, R22, R30: the `st_*` ports show the status registers, `st_err_base` and `st_err_flags` are wires over `ST_CODE`,
and the response and bus ports show their registers. -/
def Obligations.OutputPortsShowTheRegisters : Prop :=
  ∀ s : State,
    (outputs s).stRaw = s.stRaw ∧ (outputs s).st = s.st ∧
    (outputs s).stErrBase = s.st.code.extractLsb' 0 4 ∧ (outputs s).stErrFlags = s.st.code.extractLsb' 4 7 ∧
    (outputs s).rspData = s.rsp.data ∧ (outputs s).rspDone = s.rsp.done ∧
    (outputs s).rspAttempts = s.rsp.attempts ∧ (outputs s).rspIllegal = s.rsp.illegal ∧
    (outputs s).csN = s.csN ∧ (outputs s).sclk = s.sclk ∧ (outputs s).mosi = s.mosi
end

