-- ==== Sys2Proof/Laws/State.lean ====
section
/-! SUPPORT. For each plain update of the state, what it does to each field; every lemma is true by unfolding. -/

namespace Sys2Proof.Machine

@[simp] theorem respond_params (s : State) (w : Word32) (b : Bool) (n : Nat) (g : Bool) : (respond s w b n g).params = s.params := rfl
@[simp] theorem respond_ctl (s : State) (w : Word32) (b : Bool) (n : Nat) (g : Bool) : (respond s w b n g).ctl = .resp := rfl
@[simp] theorem respond_xs (s : State) (w : Word32) (b : Bool) (n : Nat) (g : Bool) : (respond s w b n g).xs = s.xs := rfl
@[simp] theorem respond_kind (s : State) (w : Word32) (b : Bool) (n : Nat) (g : Bool) : (respond s w b n g).kind = s.kind := rfl
@[simp] theorem respond_frm (s : State) (w : Word32) (b : Bool) (n : Nat) (g : Bool) : (respond s w b n g).frm = s.frm := rfl
@[simp] theorem respond_nmax (s : State) (w : Word32) (b : Bool) (n : Nat) (g : Bool) : (respond s w b n g).nmax = s.nmax := rfl
@[simp] theorem respond_att (s : State) (w : Word32) (b : Bool) (n : Nat) (g : Bool) : (respond s w b n g).att = s.att := rfl
@[simp] theorem respond_tcnt (s : State) (w : Word32) (b : Bool) (n : Nat) (g : Bool) : (respond s w b n g).tcnt = s.tcnt := rfl
@[simp] theorem respond_bidx (s : State) (w : Word32) (b : Bool) (n : Nat) (g : Bool) : (respond s w b n g).bidx = s.bidx := rfl
@[simp] theorem respond_bitn (s : State) (w : Word32) (b : Bool) (n : Nat) (g : Bool) : (respond s w b n g).bitn = s.bitn := rfl
@[simp] theorem respond_hcnt (s : State) (w : Word32) (b : Bool) (n : Nat) (g : Bool) : (respond s w b n g).hcnt = s.hcnt := rfl
@[simp] theorem respond_ph (s : State) (w : Word32) (b : Bool) (n : Nat) (g : Bool) : (respond s w b n g).ph = s.ph := rfl
@[simp] theorem respond_rxb (s : State) (w : Word32) (b : Bool) (n : Nat) (g : Bool) : (respond s w b n g).rxb = s.rxb := rfl
@[simp] theorem respond_rxacc (s : State) (w : Word32) (b : Bool) (n : Nat) (g : Bool) : (respond s w b n g).rxacc = s.rxacc := rfl
@[simp] theorem respond_msync (s : State) (w : Word32) (b : Bool) (n : Nat) (g : Bool) : (respond s w b n g).msync = s.msync := rfl
@[simp] theorem respond_rsp (s : State) (w : Word32) (b : Bool) (n : Nat) (g : Bool) : (respond s w b n g).rsp = ⟨w, b, n, g⟩ := rfl
@[simp] theorem respond_stRaw (s : State) (w : Word32) (b : Bool) (n : Nat) (g : Bool) : (respond s w b n g).stRaw = s.stRaw := rfl
@[simp] theorem respond_st (s : State) (w : Word32) (b : Bool) (n : Nat) (g : Bool) : (respond s w b n g).st = s.st := rfl
@[simp] theorem respond_csN (s : State) (w : Word32) (b : Bool) (n : Nat) (g : Bool) : (respond s w b n g).csN = s.csN := rfl
@[simp] theorem respond_sclk (s : State) (w : Word32) (b : Bool) (n : Nat) (g : Bool) : (respond s w b n g).sclk = s.sclk := rfl
@[simp] theorem respond_mosi (s : State) (w : Word32) (b : Bool) (n : Nat) (g : Bool) : (respond s w b n g).mosi = s.mosi := rfl
@[simp] theorem respond_env (s : State) (w : Word32) (b : Bool) (n : Nat) (g : Bool) : (respond s w b n g).env = s.env := rfl
@[simp] theorem respond_cycle (s : State) (w : Word32) (b : Bool) (n : Nat) (g : Bool) : (respond s w b n g).cycle = s.cycle := rfl

@[simp] theorem illegalRequest_params (s : State) : (illegalRequest s).params = s.params := rfl
@[simp] theorem illegalRequest_ctl (s : State) : (illegalRequest s).ctl = .resp := rfl
@[simp] theorem illegalRequest_xs (s : State) : (illegalRequest s).xs = s.xs := rfl
@[simp] theorem illegalRequest_kind (s : State) : (illegalRequest s).kind = s.kind := rfl
@[simp] theorem illegalRequest_frm (s : State) : (illegalRequest s).frm = s.frm := rfl
@[simp] theorem illegalRequest_nmax (s : State) : (illegalRequest s).nmax = s.nmax := rfl
@[simp] theorem illegalRequest_att (s : State) : (illegalRequest s).att = s.att := rfl
@[simp] theorem illegalRequest_tcnt (s : State) : (illegalRequest s).tcnt = s.tcnt := rfl
@[simp] theorem illegalRequest_bidx (s : State) : (illegalRequest s).bidx = s.bidx := rfl
@[simp] theorem illegalRequest_bitn (s : State) : (illegalRequest s).bitn = s.bitn := rfl
@[simp] theorem illegalRequest_hcnt (s : State) : (illegalRequest s).hcnt = s.hcnt := rfl
@[simp] theorem illegalRequest_ph (s : State) : (illegalRequest s).ph = s.ph := rfl
@[simp] theorem illegalRequest_rxb (s : State) : (illegalRequest s).rxb = s.rxb := rfl
@[simp] theorem illegalRequest_rxacc (s : State) : (illegalRequest s).rxacc = s.rxacc := rfl
@[simp] theorem illegalRequest_msync (s : State) : (illegalRequest s).msync = s.msync := rfl
@[simp] theorem illegalRequest_rsp (s : State) : (illegalRequest s).rsp = ⟨0, false, 0, true⟩ := rfl
@[simp] theorem illegalRequest_stRaw (s : State) : (illegalRequest s).stRaw = s.stRaw := rfl
@[simp] theorem illegalRequest_st (s : State) : (illegalRequest s).st = s.st := rfl
@[simp] theorem illegalRequest_csN (s : State) : (illegalRequest s).csN = s.csN := rfl
@[simp] theorem illegalRequest_sclk (s : State) : (illegalRequest s).sclk = s.sclk := rfl
@[simp] theorem illegalRequest_mosi (s : State) : (illegalRequest s).mosi = s.mosi := rfl
@[simp] theorem illegalRequest_env (s : State) : (illegalRequest s).env = s.env := rfl
@[simp] theorem illegalRequest_cycle (s : State) : (illegalRequest s).cycle = s.cycle := rfl

@[simp] theorem startFrame_params (s : State) : (startFrame s).params = s.params := rfl
@[simp] theorem startFrame_ctl (s : State) : (startFrame s).ctl = .xfer := rfl
@[simp] theorem startFrame_xs (s : State) : (startFrame s).xs = .pre := rfl
@[simp] theorem startFrame_kind (s : State) : (startFrame s).kind = s.kind := rfl
@[simp] theorem startFrame_frm (s : State) : (startFrame s).frm = s.frm := rfl
@[simp] theorem startFrame_nmax (s : State) : (startFrame s).nmax = s.nmax := rfl
@[simp] theorem startFrame_att (s : State) : (startFrame s).att = s.att := rfl
@[simp] theorem startFrame_tcnt (s : State) : (startFrame s).tcnt = s.params.tIdle - 1 := rfl
@[simp] theorem startFrame_bidx (s : State) : (startFrame s).bidx = s.bidx := rfl
@[simp] theorem startFrame_bitn (s : State) : (startFrame s).bitn = s.bitn := rfl
@[simp] theorem startFrame_hcnt (s : State) : (startFrame s).hcnt = s.hcnt := rfl
@[simp] theorem startFrame_ph (s : State) : (startFrame s).ph = s.ph := rfl
@[simp] theorem startFrame_rxb (s : State) : (startFrame s).rxb = s.rxb := rfl
@[simp] theorem startFrame_rxacc (s : State) : (startFrame s).rxacc = 0 := rfl
@[simp] theorem startFrame_msync (s : State) : (startFrame s).msync = s.msync := rfl
@[simp] theorem startFrame_rsp (s : State) : (startFrame s).rsp = s.rsp := rfl
@[simp] theorem startFrame_stRaw (s : State) : (startFrame s).stRaw = s.stRaw := rfl
@[simp] theorem startFrame_st (s : State) : (startFrame s).st = s.st := rfl
@[simp] theorem startFrame_csN (s : State) : (startFrame s).csN = true := rfl
@[simp] theorem startFrame_sclk (s : State) : (startFrame s).sclk = s.sclk := rfl
@[simp] theorem startFrame_mosi (s : State) : (startFrame s).mosi = s.mosi := rfl
@[simp] theorem startFrame_env (s : State) : (startFrame s).env = s.env := rfl
@[simp] theorem startFrame_cycle (s : State) : (startFrame s).cycle = s.cycle := rfl

@[simp] theorem loadCommand_params (s : State) (k : Kind) (f : WireFrame) (n : Nat) : (loadCommand s k f n).params = s.params := rfl
@[simp] theorem loadCommand_ctl (s : State) (k : Kind) (f : WireFrame) (n : Nat) : (loadCommand s k f n).ctl = .xfer := rfl
@[simp] theorem loadCommand_xs (s : State) (k : Kind) (f : WireFrame) (n : Nat) : (loadCommand s k f n).xs = .pre := rfl
@[simp] theorem loadCommand_kind (s : State) (k : Kind) (f : WireFrame) (n : Nat) : (loadCommand s k f n).kind = k := rfl
@[simp] theorem loadCommand_frm (s : State) (k : Kind) (f : WireFrame) (n : Nat) : (loadCommand s k f n).frm = f := rfl
@[simp] theorem loadCommand_nmax (s : State) (k : Kind) (f : WireFrame) (n : Nat) : (loadCommand s k f n).nmax = n := rfl
@[simp] theorem loadCommand_att (s : State) (k : Kind) (f : WireFrame) (n : Nat) : (loadCommand s k f n).att = 0 := rfl
@[simp] theorem loadCommand_tcnt (s : State) (k : Kind) (f : WireFrame) (n : Nat) : (loadCommand s k f n).tcnt = s.params.tIdle - 1 := rfl
@[simp] theorem loadCommand_bidx (s : State) (k : Kind) (f : WireFrame) (n : Nat) : (loadCommand s k f n).bidx = s.bidx := rfl
@[simp] theorem loadCommand_bitn (s : State) (k : Kind) (f : WireFrame) (n : Nat) : (loadCommand s k f n).bitn = s.bitn := rfl
@[simp] theorem loadCommand_hcnt (s : State) (k : Kind) (f : WireFrame) (n : Nat) : (loadCommand s k f n).hcnt = s.hcnt := rfl
@[simp] theorem loadCommand_ph (s : State) (k : Kind) (f : WireFrame) (n : Nat) : (loadCommand s k f n).ph = s.ph := rfl
@[simp] theorem loadCommand_rxb (s : State) (k : Kind) (f : WireFrame) (n : Nat) : (loadCommand s k f n).rxb = s.rxb := rfl
@[simp] theorem loadCommand_rxacc (s : State) (k : Kind) (f : WireFrame) (n : Nat) : (loadCommand s k f n).rxacc = 0 := rfl
@[simp] theorem loadCommand_msync (s : State) (k : Kind) (f : WireFrame) (n : Nat) : (loadCommand s k f n).msync = s.msync := rfl
@[simp] theorem loadCommand_rsp (s : State) (k : Kind) (f : WireFrame) (n : Nat) : (loadCommand s k f n).rsp = s.rsp := rfl
@[simp] theorem loadCommand_stRaw (s : State) (k : Kind) (f : WireFrame) (n : Nat) : (loadCommand s k f n).stRaw = s.stRaw := rfl
@[simp] theorem loadCommand_st (s : State) (k : Kind) (f : WireFrame) (n : Nat) : (loadCommand s k f n).st = s.st := rfl
@[simp] theorem loadCommand_csN (s : State) (k : Kind) (f : WireFrame) (n : Nat) : (loadCommand s k f n).csN = true := rfl
@[simp] theorem loadCommand_sclk (s : State) (k : Kind) (f : WireFrame) (n : Nat) : (loadCommand s k f n).sclk = s.sclk := rfl
@[simp] theorem loadCommand_mosi (s : State) (k : Kind) (f : WireFrame) (n : Nat) : (loadCommand s k f n).mosi = s.mosi := rfl
@[simp] theorem loadCommand_env (s : State) (k : Kind) (f : WireFrame) (n : Nat) : (loadCommand s k f n).env = s.env := rfl
@[simp] theorem loadCommand_cycle (s : State) (k : Kind) (f : WireFrame) (n : Nat) : (loadCommand s k f n).cycle = s.cycle := rfl

@[simp] theorem beginByte_params (s : State) (k : Nat) : (beginByte s k).params = s.params := rfl
@[simp] theorem beginByte_ctl (s : State) (k : Nat) : (beginByte s k).ctl = s.ctl := rfl
@[simp] theorem beginByte_xs (s : State) (k : Nat) : (beginByte s k).xs = s.xs := rfl
@[simp] theorem beginByte_kind (s : State) (k : Nat) : (beginByte s k).kind = s.kind := rfl
@[simp] theorem beginByte_frm (s : State) (k : Nat) : (beginByte s k).frm = s.frm := rfl
@[simp] theorem beginByte_nmax (s : State) (k : Nat) : (beginByte s k).nmax = s.nmax := rfl
@[simp] theorem beginByte_att (s : State) (k : Nat) : (beginByte s k).att = s.att := rfl
@[simp] theorem beginByte_tcnt (s : State) (k : Nat) : (beginByte s k).tcnt = s.tcnt := rfl
@[simp] theorem beginByte_bidx (s : State) (k : Nat) : (beginByte s k).bidx = s.bidx := rfl
@[simp] theorem beginByte_bitn (s : State) (k : Nat) : (beginByte s k).bitn = 0 := rfl
@[simp] theorem beginByte_hcnt (s : State) (k : Nat) : (beginByte s k).hcnt = s.params.sclkHalf - 1 := rfl
@[simp] theorem beginByte_ph (s : State) (k : Nat) : (beginByte s k).ph = false := rfl
@[simp] theorem beginByte_rxb (s : State) (k : Nat) : (beginByte s k).rxb = s.rxb := rfl
@[simp] theorem beginByte_rxacc (s : State) (k : Nat) : (beginByte s k).rxacc = s.rxacc := rfl
@[simp] theorem beginByte_msync (s : State) (k : Nat) : (beginByte s k).msync = s.msync := rfl
@[simp] theorem beginByte_rsp (s : State) (k : Nat) : (beginByte s k).rsp = s.rsp := rfl
@[simp] theorem beginByte_stRaw (s : State) (k : Nat) : (beginByte s k).stRaw = s.stRaw := rfl
@[simp] theorem beginByte_st (s : State) (k : Nat) : (beginByte s k).st = s.st := rfl
@[simp] theorem beginByte_csN (s : State) (k : Nat) : (beginByte s k).csN = s.csN := rfl
@[simp] theorem beginByte_sclk (s : State) (k : Nat) : (beginByte s k).sclk = s.sclk := rfl
@[simp] theorem beginByte_mosi (s : State) (k : Nat) : (beginByte s k).mosi = if s.params.spiMode.cpha then s.mosi else txBit s.params.bitOrder s.frm k 0 := rfl
@[simp] theorem beginByte_env (s : State) (k : Nat) : (beginByte s k).env = s.env := rfl
@[simp] theorem beginByte_cycle (s : State) (k : Nat) : (beginByte s k).cycle = s.cycle := rfl

@[simp] theorem writeStatus_params (s : State) (w : Word32) : (writeStatus s w).params = s.params := rfl
@[simp] theorem writeStatus_ctl (s : State) (w : Word32) : (writeStatus s w).ctl = s.ctl := rfl
@[simp] theorem writeStatus_xs (s : State) (w : Word32) : (writeStatus s w).xs = s.xs := rfl
@[simp] theorem writeStatus_kind (s : State) (w : Word32) : (writeStatus s w).kind = s.kind := rfl
@[simp] theorem writeStatus_frm (s : State) (w : Word32) : (writeStatus s w).frm = s.frm := rfl
@[simp] theorem writeStatus_nmax (s : State) (w : Word32) : (writeStatus s w).nmax = s.nmax := rfl
@[simp] theorem writeStatus_att (s : State) (w : Word32) : (writeStatus s w).att = s.att := rfl
@[simp] theorem writeStatus_tcnt (s : State) (w : Word32) : (writeStatus s w).tcnt = s.tcnt := rfl
@[simp] theorem writeStatus_bidx (s : State) (w : Word32) : (writeStatus s w).bidx = s.bidx := rfl
@[simp] theorem writeStatus_bitn (s : State) (w : Word32) : (writeStatus s w).bitn = s.bitn := rfl
@[simp] theorem writeStatus_hcnt (s : State) (w : Word32) : (writeStatus s w).hcnt = s.hcnt := rfl
@[simp] theorem writeStatus_ph (s : State) (w : Word32) : (writeStatus s w).ph = s.ph := rfl
@[simp] theorem writeStatus_rxb (s : State) (w : Word32) : (writeStatus s w).rxb = s.rxb := rfl
@[simp] theorem writeStatus_rxacc (s : State) (w : Word32) : (writeStatus s w).rxacc = s.rxacc := rfl
@[simp] theorem writeStatus_msync (s : State) (w : Word32) : (writeStatus s w).msync = s.msync := rfl
@[simp] theorem writeStatus_rsp (s : State) (w : Word32) : (writeStatus s w).rsp = s.rsp := rfl
@[simp] theorem writeStatus_stRaw (s : State) (w : Word32) : (writeStatus s w).stRaw = w := rfl
@[simp] theorem writeStatus_st (s : State) (w : Word32) : (writeStatus s w).st = decodeStatus s.params w := rfl
@[simp] theorem writeStatus_csN (s : State) (w : Word32) : (writeStatus s w).csN = s.csN := rfl
@[simp] theorem writeStatus_sclk (s : State) (w : Word32) : (writeStatus s w).sclk = s.sclk := rfl
@[simp] theorem writeStatus_mosi (s : State) (w : Word32) : (writeStatus s w).mosi = s.mosi := rfl
@[simp] theorem writeStatus_env (s : State) (w : Word32) : (writeStatus s w).env = s.env := rfl
@[simp] theorem writeStatus_cycle (s : State) (w : Word32) : (writeStatus s w).cycle = s.cycle := rfl

@[simp] theorem sample_params (s : State) : (sample s).params = s.params := rfl
@[simp] theorem sample_ctl (s : State) : (sample s).ctl = s.ctl := rfl
@[simp] theorem sample_xs (s : State) : (sample s).xs = s.xs := rfl
@[simp] theorem sample_kind (s : State) : (sample s).kind = s.kind := rfl
@[simp] theorem sample_frm (s : State) : (sample s).frm = s.frm := rfl
@[simp] theorem sample_nmax (s : State) : (sample s).nmax = s.nmax := rfl
@[simp] theorem sample_att (s : State) : (sample s).att = s.att := rfl
@[simp] theorem sample_tcnt (s : State) : (sample s).tcnt = s.tcnt := rfl
@[simp] theorem sample_bidx (s : State) : (sample s).bidx = s.bidx := rfl
@[simp] theorem sample_bitn (s : State) : (sample s).bitn = s.bitn := rfl
@[simp] theorem sample_hcnt (s : State) : (sample s).hcnt = s.hcnt := rfl
@[simp] theorem sample_ph (s : State) : (sample s).ph = s.ph := rfl
@[simp] theorem sample_rxb (s : State) : (sample s).rxb = shiftIn s.params.bitOrder s.rxb (misoSynced s) := rfl
@[simp] theorem sample_rxacc (s : State) : (sample s).rxacc = s.rxacc := rfl
@[simp] theorem sample_msync (s : State) : (sample s).msync = s.msync := rfl
@[simp] theorem sample_rsp (s : State) : (sample s).rsp = s.rsp := rfl
@[simp] theorem sample_stRaw (s : State) : (sample s).stRaw = s.stRaw := rfl
@[simp] theorem sample_st (s : State) : (sample s).st = s.st := rfl
@[simp] theorem sample_csN (s : State) : (sample s).csN = s.csN := rfl
@[simp] theorem sample_sclk (s : State) : (sample s).sclk = s.sclk := rfl
@[simp] theorem sample_mosi (s : State) : (sample s).mosi = s.mosi := rfl
@[simp] theorem sample_env (s : State) : (sample s).env = s.env := rfl
@[simp] theorem sample_cycle (s : State) : (sample s).cycle = s.cycle := rfl

@[simp] theorem advance_params (s : State) : (advance s).params = s.params := rfl
@[simp] theorem advance_ctl (s : State) : (advance s).ctl = s.ctl := rfl
@[simp] theorem advance_xs (s : State) : (advance s).xs = s.xs := rfl
@[simp] theorem advance_kind (s : State) : (advance s).kind = s.kind := rfl
@[simp] theorem advance_frm (s : State) : (advance s).frm = s.frm := rfl
@[simp] theorem advance_nmax (s : State) : (advance s).nmax = s.nmax := rfl
@[simp] theorem advance_att (s : State) : (advance s).att = s.att := rfl
@[simp] theorem advance_tcnt (s : State) : (advance s).tcnt = s.tcnt := rfl
@[simp] theorem advance_bidx (s : State) : (advance s).bidx = s.bidx := rfl
@[simp] theorem advance_bitn (s : State) : (advance s).bitn = s.bitn := rfl
@[simp] theorem advance_hcnt (s : State) : (advance s).hcnt = s.hcnt := rfl
@[simp] theorem advance_ph (s : State) : (advance s).ph = s.ph := rfl
@[simp] theorem advance_rxb (s : State) : (advance s).rxb = s.rxb := rfl
@[simp] theorem advance_rxacc (s : State) : (advance s).rxacc = s.rxacc := rfl
@[simp] theorem advance_msync (s : State) : (advance s).msync = s.msync := rfl
@[simp] theorem advance_rsp (s : State) : (advance s).rsp = s.rsp := rfl
@[simp] theorem advance_stRaw (s : State) : (advance s).stRaw = s.stRaw := rfl
@[simp] theorem advance_st (s : State) : (advance s).st = s.st := rfl
@[simp] theorem advance_csN (s : State) : (advance s).csN = s.csN := rfl
@[simp] theorem advance_sclk (s : State) : (advance s).sclk = s.sclk := rfl
@[simp] theorem advance_mosi (s : State) : (advance s).mosi = s.mosi := rfl
@[simp] theorem advance_env (s : State) : (advance s).env = s.env.tail := rfl
@[simp] theorem advance_cycle (s : State) : (advance s).cycle = s.cycle + 1 := rfl

@[simp] theorem resetRegs_params (s : State) : (resetRegs s).params = s.params := rfl
@[simp] theorem resetRegs_ctl (s : State) : (resetRegs s).ctl = (State.resetOf s.params).ctl := rfl
@[simp] theorem resetRegs_xs (s : State) : (resetRegs s).xs = (State.resetOf s.params).xs := rfl
@[simp] theorem resetRegs_kind (s : State) : (resetRegs s).kind = (State.resetOf s.params).kind := rfl
@[simp] theorem resetRegs_frm (s : State) : (resetRegs s).frm = (State.resetOf s.params).frm := rfl
@[simp] theorem resetRegs_nmax (s : State) : (resetRegs s).nmax = (State.resetOf s.params).nmax := rfl
@[simp] theorem resetRegs_att (s : State) : (resetRegs s).att = (State.resetOf s.params).att := rfl
@[simp] theorem resetRegs_tcnt (s : State) : (resetRegs s).tcnt = (State.resetOf s.params).tcnt := rfl
@[simp] theorem resetRegs_bidx (s : State) : (resetRegs s).bidx = (State.resetOf s.params).bidx := rfl
@[simp] theorem resetRegs_bitn (s : State) : (resetRegs s).bitn = (State.resetOf s.params).bitn := rfl
@[simp] theorem resetRegs_hcnt (s : State) : (resetRegs s).hcnt = (State.resetOf s.params).hcnt := rfl
@[simp] theorem resetRegs_ph (s : State) : (resetRegs s).ph = (State.resetOf s.params).ph := rfl
@[simp] theorem resetRegs_rxb (s : State) : (resetRegs s).rxb = (State.resetOf s.params).rxb := rfl
@[simp] theorem resetRegs_rxacc (s : State) : (resetRegs s).rxacc = (State.resetOf s.params).rxacc := rfl
@[simp] theorem resetRegs_msync (s : State) : (resetRegs s).msync = (State.resetOf s.params).msync := rfl
@[simp] theorem resetRegs_rsp (s : State) : (resetRegs s).rsp = (State.resetOf s.params).rsp := rfl
@[simp] theorem resetRegs_stRaw (s : State) : (resetRegs s).stRaw = (State.resetOf s.params).stRaw := rfl
@[simp] theorem resetRegs_st (s : State) : (resetRegs s).st = (State.resetOf s.params).st := rfl
@[simp] theorem resetRegs_csN (s : State) : (resetRegs s).csN = (State.resetOf s.params).csN := rfl
@[simp] theorem resetRegs_sclk (s : State) : (resetRegs s).sclk = (State.resetOf s.params).sclk := rfl
@[simp] theorem resetRegs_mosi (s : State) : (resetRegs s).mosi = (State.resetOf s.params).mosi := rfl
@[simp] theorem resetRegs_env (s : State) : (resetRegs s).env = s.env := rfl
@[simp] theorem resetRegs_cycle (s : State) : (resetRegs s).cycle = s.cycle := rfl

@[simp] theorem withPins_params (s : State) (p : Pins) : (s.withPins p).params = s.params := rfl
@[simp] theorem withPins_ctl (s : State) (p : Pins) : (s.withPins p).ctl = s.ctl := rfl
@[simp] theorem withPins_xs (s : State) (p : Pins) : (s.withPins p).xs = s.xs := rfl
@[simp] theorem withPins_kind (s : State) (p : Pins) : (s.withPins p).kind = s.kind := rfl
@[simp] theorem withPins_frm (s : State) (p : Pins) : (s.withPins p).frm = s.frm := rfl
@[simp] theorem withPins_nmax (s : State) (p : Pins) : (s.withPins p).nmax = s.nmax := rfl
@[simp] theorem withPins_att (s : State) (p : Pins) : (s.withPins p).att = s.att := rfl
@[simp] theorem withPins_tcnt (s : State) (p : Pins) : (s.withPins p).tcnt = s.tcnt := rfl
@[simp] theorem withPins_bidx (s : State) (p : Pins) : (s.withPins p).bidx = s.bidx := rfl
@[simp] theorem withPins_bitn (s : State) (p : Pins) : (s.withPins p).bitn = s.bitn := rfl
@[simp] theorem withPins_hcnt (s : State) (p : Pins) : (s.withPins p).hcnt = s.hcnt := rfl
@[simp] theorem withPins_ph (s : State) (p : Pins) : (s.withPins p).ph = s.ph := rfl
@[simp] theorem withPins_rxb (s : State) (p : Pins) : (s.withPins p).rxb = s.rxb := rfl
@[simp] theorem withPins_rxacc (s : State) (p : Pins) : (s.withPins p).rxacc = s.rxacc := rfl
@[simp] theorem withPins_msync (s : State) (p : Pins) : (s.withPins p).msync = s.msync := rfl
@[simp] theorem withPins_rsp (s : State) (p : Pins) : (s.withPins p).rsp = s.rsp := rfl
@[simp] theorem withPins_stRaw (s : State) (p : Pins) : (s.withPins p).stRaw = s.stRaw := rfl
@[simp] theorem withPins_st (s : State) (p : Pins) : (s.withPins p).st = s.st := rfl
@[simp] theorem withPins_csN (s : State) (p : Pins) : (s.withPins p).csN = s.csN := rfl
@[simp] theorem withPins_sclk (s : State) (p : Pins) : (s.withPins p).sclk = s.sclk := rfl
@[simp] theorem withPins_mosi (s : State) (p : Pins) : (s.withPins p).mosi = s.mosi := rfl
@[simp] theorem withPins_env (s : State) (p : Pins) : (s.withPins p).env = p :: s.env.tail := rfl
@[simp] theorem withPins_cycle (s : State) (p : Pins) : (s.withPins p).cycle = s.cycle := rfl

@[simp] theorem resetOf_params (p : Params) : (State.resetOf p).params = p := rfl
@[simp] theorem resetOf_ctl (p : Params) : (State.resetOf p).ctl = .idle := rfl
@[simp] theorem resetOf_xs (p : Params) : (State.resetOf p).xs = .off := rfl
@[simp] theorem resetOf_kind (p : Params) : (State.resetOf p).kind = .frame := rfl
@[simp] theorem resetOf_frm (p : Params) : (State.resetOf p).frm = 0 := rfl
@[simp] theorem resetOf_nmax (p : Params) : (State.resetOf p).nmax = 0 := rfl
@[simp] theorem resetOf_att (p : Params) : (State.resetOf p).att = 0 := rfl
@[simp] theorem resetOf_tcnt (p : Params) : (State.resetOf p).tcnt = 0 := rfl
@[simp] theorem resetOf_bidx (p : Params) : (State.resetOf p).bidx = 0 := rfl
@[simp] theorem resetOf_bitn (p : Params) : (State.resetOf p).bitn = 0 := rfl
@[simp] theorem resetOf_hcnt (p : Params) : (State.resetOf p).hcnt = 0 := rfl
@[simp] theorem resetOf_ph (p : Params) : (State.resetOf p).ph = false := rfl
@[simp] theorem resetOf_rxb (p : Params) : (State.resetOf p).rxb = 0 := rfl
@[simp] theorem resetOf_rxacc (p : Params) : (State.resetOf p).rxacc = 0 := rfl
@[simp] theorem resetOf_msync (p : Params) : (State.resetOf p).msync = List.replicate p.syncStages false := rfl
@[simp] theorem resetOf_rsp (p : Params) : (State.resetOf p).rsp = Response.zero := rfl
@[simp] theorem resetOf_stRaw (p : Params) : (State.resetOf p).stRaw = 0 := rfl
@[simp] theorem resetOf_st (p : Params) : (State.resetOf p).st = Status.zero := rfl
@[simp] theorem resetOf_csN (p : Params) : (State.resetOf p).csN = true := rfl
@[simp] theorem resetOf_sclk (p : Params) : (State.resetOf p).sclk = p.spiMode.cpol := rfl
@[simp] theorem resetOf_mosi (p : Params) : (State.resetOf p).mosi = false := rfl
@[simp] theorem resetOf_env (p : Params) : (State.resetOf p).env = [] := rfl
@[simp] theorem resetOf_cycle (p : Params) : (State.resetOf p).cycle = 0 := rfl

end Sys2Proof.Machine
end

