-- ==== Sys2Proof/Laws/Ops.lean ====
section
/-! SUPPORT. For each shared operation, one lemma that says what it can do. -/

namespace Sys2Proof.Machine

/-! ### The clock cycle -/

theorem clock_of_legal {s : State} (h : s.params.legal = true) (a : State → State) :
    clock s a = .next (edge s a) := by
  simp [clock, h]

theorem clock_of_illegal {s : State} (h : s.params.legal = false) (a : State → State) :
    clock s a = .refused .illegalConfiguration := by
  simp [clock, h]

/-- A clock cycle answers a next state exactly in a legal configuration, and then the one that `edge` gives. -/
theorem clock_next_iff {s t : State} {a : State → State} :
    clock s a = .next t ↔ s.params.legal = true ∧ t = edge s a := by
  cases h : s.params.legal
  · simp [clock, h]
  · simp [clock, h, eq_comm]

theorem edge_of_rst {s : State} (h : (pinsAt s 0).rst = true) (a : State → State) :
    edge s a = advance (resetRegs s) := by
  simp [edge, h]

theorem edge_of_no_rst {s : State} (h : (pinsAt s 0).rst = false) (a : State → State) :
    edge s a = advance { fsmEdge s a with msync := nextSync s } := by
  simp [edge, h]

/-- What an edge without reset does to a machine in each state of the control FSM. -/
theorem fsmEdge_cases (s : State) (a : State → State) :
    (s.ctl = .idle ∧ fsmEdge s a = a s) ∨
    (s.ctl = .xfer ∧ fsmEdge s a = transportEdge s) ∨
    (s.ctl = .pwait ∧ fsmEdge s a = timed s (startFrame s)) ∨
    (s.ctl = .resp ∧ fsmEdge s a = { s with ctl := .idle }) := by
  cases h : s.ctl <;> simp [fsmEdge, h]

theorem fsmEdge_idle {s : State} (h : s.ctl = .idle) (a : State → State) : fsmEdge s a = a s := by
  simp [fsmEdge, h]

/-- A machine that is not ready does not look at the request port. -/
theorem fsmEdge_busy {s : State} (h : s.ctl ≠ .idle) (a b : State → State) : fsmEdge s a = fsmEdge s b := by
  cases hc : s.ctl <;> simp_all [fsmEdge]

/-! ### Timed phases -/

theorem timed_zero {s d : State} (h : s.tcnt = 0) : timed s d = d := by simp [timed, h]

theorem timed_pos {s d : State} (h : s.tcnt ≠ 0) : timed s d = { s with tcnt := s.tcnt - 1 } := by
  simp [timed, h]

/-- A timed phase either ends, when its timer has run out, or counts down and changes nothing else. -/
theorem timed_cases (s d : State) :
    (s.tcnt = 0 ∧ timed s d = d) ∨ (s.tcnt ≠ 0 ∧ timed s d = { s with tcnt := s.tcnt - 1 }) := by
  by_cases h : s.tcnt = 0
  · exact .inl ⟨h, timed_zero h⟩
  · exact .inr ⟨h, timed_pos h⟩

/-! ### The end of a frame -/

/-- The end of an attempt either answers the POLL or begins the wait before the next attempt (R171). -/
theorem pollAttemptEnd_cases (s : State) (w : Word32) :
    (((decodeStatus s.params w).done = true ∨ nextAttempt s = s.nmax) ∧
      pollAttemptEnd s w =
        { s with
          stRaw := w, st := decodeStatus s.params w, att := nextAttempt s, ctl := .resp
          rsp := ⟨w, (decodeStatus s.params w).done, nextAttempt s, false⟩ }) ∨
    ((decodeStatus s.params w).done = false ∧ nextAttempt s ≠ s.nmax ∧
      pollAttemptEnd s w =
        { s with
          stRaw := w, st := decodeStatus s.params w, att := nextAttempt s, ctl := .pwait
          tcnt := s.params.tPoll - 1 }) := by
  by_cases hd : (decodeStatus s.params w).done = true
  · exact .inl ⟨.inl hd, by simp [pollAttemptEnd, writeStatus, respond, hd]⟩
  · by_cases ha : nextAttempt s = s.nmax
    · exact .inl ⟨.inr ha, by simp [pollAttemptEnd, writeStatus, respond, ha]⟩
    · refine .inr ⟨by simpa using hd, ha, ?_⟩
      simp [pollAttemptEnd, writeStatus, hd, ha]

theorem frameEnd_frame {s : State} (h : s.kind = .frame) (w : Word32) :
    frameEnd s w = respond s w false 0 false := by
  simp [frameEnd, h]

theorem frameEnd_poll {s : State} (h : s.kind = .poll) (w : Word32) : frameEnd s w = pollAttemptEnd s w := by
  simp [frameEnd, h]

/-! ### The bit level -/

/-- The end of a byte: the byte enters the response if it is one of the last four, `mosi` falls, and the gap or, after
byte 6, the hold begins (R103). -/
theorem endByte_cases (s : State) :
    (s.bidx.toNat < 6 ∧
      endByte s =
        { s with
          rxacc := if 3 ≤ s.bidx.toNat then accumulate s.rxacc s.rxb else s.rxacc
          mosi := false, xs := .gap, tcnt := s.params.tGap - 1 }) ∨
    (6 ≤ s.bidx.toNat ∧
      endByte s =
        { s with rxacc := accumulate s.rxacc s.rxb, mosi := false, xs := .hold, tcnt := s.params.tHold - 1 }) := by
  by_cases h : s.bidx.toNat < 6
  · exact .inl ⟨h, by simp [endByte, h]⟩
  · have h3 : 3 ≤ s.bidx.toNat := by omega
    exact .inr ⟨by omega, by simp [endByte, h, h3]⟩

/-- One edge in `X_SHIFT`: a cycle inside a half period, a leading edge or a trailing edge (R104). -/
theorem shiftEdge_cases (s : State) :
    (s.hcnt ≠ 0 ∧ shiftEdge s = { s with hcnt := s.hcnt - 1 }) ∨
    (s.hcnt = 0 ∧ s.ph = false ∧ shiftEdge s = leadingEdge s) ∨
    (s.hcnt = 0 ∧ s.ph = true ∧ shiftEdge s = trailingEdge s) := by
  by_cases h : s.hcnt = 0
  · cases hp : s.ph
    · exact .inr (.inl ⟨h, rfl, by simp [shiftEdge, h, hp]⟩)
    · exact .inr (.inr ⟨h, rfl, by simp [shiftEdge, h, hp]⟩)
  · exact .inl ⟨h, by simp [shiftEdge, h]⟩

/-- A leading edge: `sclk` leaves its idle level, and the bit is sampled (CPHA = 0) or driven (CPHA = 1). -/
theorem leadingEdge_cases (s : State) :
    (s.params.spiMode.cpha = false ∧
      leadingEdge s =
        { s with
          ph := true, sclk := !s.params.spiMode.cpol, hcnt := s.params.sclkHalf - 1
          rxb := shiftIn s.params.bitOrder s.rxb (misoSynced s) }) ∨
    (s.params.spiMode.cpha = true ∧
      leadingEdge s =
        { s with
          ph := true, sclk := !s.params.spiMode.cpol, hcnt := s.params.sclkHalf - 1
          mosi := txBit s.params.bitOrder s.frm s.bidx.toNat s.bitn.toNat }) := by
  cases h : s.params.spiMode.cpha
  · exact .inl ⟨rfl, by simp [leadingEdge, h, sample, misoSynced, misoAt, pinsAt]⟩
  · exact .inr ⟨rfl, by simp [leadingEdge, h]⟩

/-- `s` after the part that every trailing edge has: `sclk` back at its idle level and, with CPHA = 1, the sample. -/
theorem trailingEdge_cases (s : State) :
    let rx := if s.params.spiMode.cpha then shiftIn s.params.bitOrder s.rxb (misoSynced s) else s.rxb
    let s' : State := { s with
      ph := false, sclk := s.params.spiMode.cpol, hcnt := s.params.sclkHalf - 1, rxb := rx }
    (s.bitn.toNat < 7 ∧
      trailingEdge s =
        { s' with
          bitn := s.bitn + 1
          mosi := if s.params.spiMode.cpha then s.mosi
                  else txBit s.params.bitOrder s.frm s.bidx.toNat (s.bitn.toNat + 1) }) ∨
    (7 ≤ s.bitn.toNat ∧ trailingEdge s = endByte s') := by
  by_cases hb : s.bitn.toNat < 7
  · left
    refine ⟨hb, ?_⟩
    cases h : s.params.spiMode.cpha <;> simp [trailingEdge, h, hb, sample, misoSynced, misoAt, pinsAt]
  · right
    refine ⟨by omega, ?_⟩
    cases h : s.params.spiMode.cpha <;> simp [trailingEdge, h, hb, sample, misoSynced, misoAt, pinsAt]

/-! ### What the transport FSM never touches -/

/-- The registers that no edge of the shifter writes: the command, the response, the status, the outside world. -/
structure SameCommand (s t : State) : Prop where
  params : t.params = s.params
  kind : t.kind = s.kind
  frm : t.frm = s.frm
  nmax : t.nmax = s.nmax
  msync : t.msync = s.msync
  env : t.env = s.env
  cycle : t.cycle = s.cycle

theorem SameCommand.refl (s : State) : SameCommand s s := ⟨rfl, rfl, rfl, rfl, rfl, rfl, rfl⟩

theorem pollAttemptEnd_sameCommand (s : State) (w : Word32) : SameCommand s (pollAttemptEnd s w) := by
  rcases pollAttemptEnd_cases s w with ⟨-, h⟩ | ⟨-, -, h⟩ <;> rw [h] <;> constructor <;> rfl

theorem frameEnd_sameCommand (s : State) (w : Word32) : SameCommand s (frameEnd s w) := by
  cases h : s.kind
  · rw [frameEnd_frame h]; constructor <;> rfl
  · rw [frameEnd_poll h]; exact pollAttemptEnd_sameCommand s w

theorem endByte_sameCommand (s : State) : SameCommand s (endByte s) := by
  rcases endByte_cases s with ⟨-, h⟩ | ⟨-, h⟩ <;> rw [h] <;> constructor <;> rfl

theorem shiftEdge_sameCommand (s : State) : SameCommand s (shiftEdge s) := by
  rcases shiftEdge_cases s with ⟨-, h⟩ | ⟨-, -, h⟩ | ⟨-, -, h⟩
  · rw [h]; constructor <;> rfl
  · rw [h]
    rcases leadingEdge_cases s with ⟨-, h'⟩ | ⟨-, h'⟩ <;> rw [h'] <;> constructor <;> rfl
  · rw [h]
    rcases trailingEdge_cases s with ⟨-, h'⟩ | ⟨-, h'⟩
    · rw [h']; constructor <;> rfl
    · rw [h']
      obtain ⟨h1, h2, h3, h4, h5, h6, h7⟩ := endByte_sameCommand
        { s with
          ph := false, sclk := s.params.spiMode.cpol, hcnt := s.params.sclkHalf - 1
          rxb := if s.params.spiMode.cpha then shiftIn s.params.bitOrder s.rxb (misoSynced s) else s.rxb }
      exact ⟨h1, h2, h3, h4, h5, h6, h7⟩

/-- Every edge of the transport FSM leaves the command registers and the outside world as they are. -/
theorem transportEdge_sameCommand (s : State) : SameCommand s (transportEdge s) := by
  have timedSame : ∀ d, SameCommand s d → SameCommand s (timed s d) := by
    intro d hd
    rcases timed_cases s d with ⟨-, h⟩ | ⟨-, h⟩ <;> rw [h]
    · exact hd
    · constructor <;> rfl
  cases h : s.xs <;> simp only [transportEdge, h]
  · exact .refl s
  · exact timedSame _ (by constructor <;> rfl)
  · exact timedSame _ (by constructor <;> rfl)
  · exact shiftEdge_sameCommand s
  · exact timedSame _ (by constructor <;> rfl)
  · apply timedSame
    obtain ⟨h1, h2, h3, h4, h5, h6, h7⟩ := frameEnd_sameCommand { s with xs := .off, csN := true } s.rxacc
    exact ⟨h1, h2, h3, h4, h5, h6, h7⟩

end Sys2Proof.Machine
end

