-- ==== Sys2Proof/Laws/Params.lean ====
section
/-! SUPPORT. What a legal configuration gives. -/

namespace Sys2Proof.Machine

/-- R8, the part about times: every delay is at least one cycle. -/
theorem legal_times {p : Params} (h : p.legal = true) :
    1 ≤ p.tIdle ∧ 1 ≤ p.tSetup ∧ 1 ≤ p.tHold ∧ 1 ≤ p.tGap ∧ 1 ≤ p.tPoll := by
  simp [Params.legal, Params.timesLegal] at h
  omega

/-- R8, the part about the serial clock. -/
theorem legal_clock {p : Params} (h : p.legal = true) : 1 ≤ p.sclkHalf ∧ p.syncStages ≤ p.sclkHalf - 1 := by
  simp [Params.legal, Params.clockLegal] at h
  omega

/-- R8, the part about the count. -/
theorem legal_count {p : Params} (h : p.legal = true) : 6 ≤ p.cntW := by
  simp [Params.legal, Params.countLegal] at h
  omega

/-- R8, the parts about the status fields: each inside the word, any two apart. -/
theorem legal_fields {p : Params} (h : p.legal = true) :
    (∀ f ∈ p.statusFields, f.1 + f.2 ≤ 32) ∧
      p.statusFields.Pairwise fun f g => f.1 + f.2 ≤ g.1 ∨ g.1 + g.2 ≤ f.1 := by
  simp only [Params.legal, Bool.and_eq_true, Params.fieldsInside, Params.fieldsDisjoint, List.all_eq_true,
    decide_eq_true_eq] at h
  exact ⟨h.1.1.2, h.1.2⟩

/-- A delay of at most the longest one fits the timer (R7, R27). -/
theorem lt_two_pow_tcntW {p : Params} {t : Nat} (h : t ≤ p.tMax) (h1 : 1 ≤ p.tMax) : t - 1 < 2 ^ p.tcntW := by
  have hmax : p.tMax - 1 < 2 ^ p.tcntW := by
    unfold Params.tcntW
    by_cases h0 : p.tMax - 1 = 0
    · rw [h0]; exact Nat.two_pow_pos _
    · exact (Nat.log2_lt h0).1 (Nat.lt_succ_self _)
  omega

/-- Every value that a phase loads into the timer fits it. -/
theorem timer_loads_fit {p : Params} (h : p.legal = true) :
    p.tIdle - 1 < 2 ^ p.tcntW ∧ p.tSetup - 1 < 2 ^ p.tcntW ∧ p.tHold - 1 < 2 ^ p.tcntW ∧
      p.tGap - 1 < 2 ^ p.tcntW ∧ p.tPoll - 1 < 2 ^ p.tcntW := by
  have ht := legal_times h
  have h1 : 1 ≤ p.tMax := by unfold Params.tMax; omega
  refine ⟨?_, ?_, ?_, ?_, ?_⟩ <;> refine lt_two_pow_tcntW ?_ h1 <;> unfold Params.tMax <;> omega

/-- The zero word decodes to all zeros in every layout. -/
@[simp] theorem decodeStatus_zero (p : Params) : decodeStatus p 0#32 = Status.zero := by
  simp [decodeStatus, Status.zero]

end Sys2Proof.Machine
end

