-- ==== Sys2Proof/Laws/PerInstr.lean ====
section
/-! SUPPORT. Statements about every command, one lemma per constructor of Instr. -/

namespace Sys2Proof.Laws

/-- R70, R73: every command is one request bundle of `58 + CNT_W` bits. -/
def OneBundle.Statement (i : Instr) : Prop := ∀ cntW : Nat, encode cntW i < 2 ^ (58 + cntW)

theorem bundle_lt (cntW cmd count : Nat) (w : WireFrame) : bundle cntW cmd count w < 2 ^ (58 + cntW) := by
  have hc : cmd % 4 < 4 := Nat.mod_lt _ (by decide)
  have hn : count % 2 ^ cntW + 1 ≤ 2 ^ cntW := Nat.mod_lt _ (Nat.two_pow_pos _)
  have hw : w.toNat < 2 ^ 56 := w.isLt
  have h58 : 2 ^ (58 + cntW) = 4 * (2 ^ 56 * 2 ^ cntW) := by rw [Nat.pow_add]; ring
  have h56 : 2 ^ (56 + cntW) = 2 ^ 56 * 2 ^ cntW := Nat.pow_add ..
  have hlow : (count % 2 ^ cntW) * 2 ^ 56 + 2 ^ 56 ≤ 2 ^ 56 * 2 ^ cntW := by
    have := Nat.mul_le_mul_right (2 ^ 56) hn
    rw [Nat.mul_comm (2 ^ 56) (2 ^ cntW)]
    rwa [Nat.add_mul, Nat.one_mul] at this
  have hhigh : cmd % 4 * (2 ^ 56 * 2 ^ cntW) + 2 ^ 56 * 2 ^ cntW ≤ 4 * (2 ^ 56 * 2 ^ cntW) := by
    have := Nat.mul_le_mul_right (2 ^ 56 * 2 ^ cntW) hc
    rwa [Nat.succ_mul] at this
  unfold bundle
  rw [h58, h56]
  omega

theorem OneBundle.frame (opcode : Byte) (address : Addr) (data : Word32) :
    OneBundle.Statement (.frame opcode address data) := fun _ => bundle_lt ..

theorem OneBundle.poll (n : Nat) : OneBundle.Statement (.poll n) := fun _ => bundle_lt ..

end Sys2Proof.Laws
end

