-- ==== Sys2Proof/Laws/Step.lean ====
section
/-! SUPPORT. What a step can do, the pins of later cycles, and runs. -/

namespace Sys2Proof.Machine

/-! ### The step -/

/-- What the request port asks of a ready machine in this cycle. -/
def portAction (s : State) : State → State :=
  match offered s with
  | none => id
  | some (.ok (.frame opcode address data)) => acceptFrame opcode address data
  | some (.ok (.poll n)) => acceptPoll n
  | some (.error _) => illegalRequest

/-- Every step is one clock cycle with the request port's action. -/
theorem step_eq_clock (s : State) : step s = clock s (portAction s) := by
  unfold step portAction
  cases offered s with
  | none => rfl
  | some d =>
    cases d with
    | error _ => rfl
    | ok i => cases i <;> rfl

theorem step_next_iff {s t : State} : step s = .next t ↔ s.params.legal = true ∧ t = edge s (portAction s) := by
  rw [step_eq_clock, clock_next_iff]

theorem step_of_legal {s : State} (h : s.params.legal = true) : step s = .next (edge s (portAction s)) :=
  step_next_iff.2 ⟨h, rfl⟩

theorem exec_frame (op : Byte) (a : Addr) (d : Word32) (s : State) :
    exec (.frame op a d) s = clock s (acceptFrame op a d) := rfl

theorem exec_poll (n : Nat) (s : State) : exec (.poll n) s = clock s (acceptPoll n) := rfl

theorem acceptPoll_zero {n : Nat} {s : State} (h : countOperand s.params n = 0) : acceptPoll n s = illegalRequest s := by
  simp [acceptPoll, h]

theorem acceptPoll_pos {n : Nat} {s : State} (h : countOperand s.params n ≠ 0) :
    acceptPoll n s = loadCommand s .poll (statusReadFrame s.params) (countOperand s.params n) := by
  simp [acceptPoll, h]

/-- What a ready machine does with its request port: nothing, the illegal response, or a command loaded. -/
theorem portAction_cases (s u : State) :
    portAction s u = u ∨ portAction s u = illegalRequest u ∨
    (∃ f, portAction s u = loadCommand u .frame f 0) ∨
    (∃ n, 0 < n ∧ n < 2 ^ u.params.cntW ∧
      portAction s u = loadCommand u .poll (statusReadFrame u.params) n) := by
  unfold portAction
  cases offered s with
  | none => exact .inl rfl
  | some d =>
    cases d with
    | error _ => exact .inr (.inl rfl)
    | ok i =>
      cases i with
      | frame op a d => exact .inr (.inr (.inl ⟨_, rfl⟩))
      | poll n =>
        by_cases h : countOperand u.params n = 0
        · exact .inr (.inl (acceptPoll_zero h))
        · exact .inr (.inr (.inr ⟨_, Nat.pos_of_ne_zero h, Nat.mod_lt _ (Nat.two_pow_pos _), acceptPoll_pos h⟩))

/-! ### The pins of later cycles -/

@[simp] theorem pinsAt_advance (s : State) (k : Nat) : pinsAt (advance s) k = pinsAt s (k + 1) := by
  simp [pinsAt, List.getD_eq_getElem?_getD]

@[simp] theorem misoAt_advance (s : State) (k : Nat) : misoAt (advance s) k = misoAt s (k + 1) := by
  simp only [misoAt, pinsAt_advance, advance_cycle]
  rw [Nat.add_assoc, Nat.add_comm 1 k]

theorem pinsAt_congr {s t : State} (h : t.env = s.env) (k : Nat) : pinsAt t k = pinsAt s k := by
  simp [pinsAt, h]

theorem misoAt_congr {s t : State} (h : t.env = s.env) (hc : t.cycle = s.cycle) (k : Nat) :
    misoAt t k = misoAt s k := by
  simp [misoAt, pinsAt_congr h, hc]

@[simp] theorem pinsAt_withPins_zero (s : State) (p : Pins) : pinsAt (s.withPins p) 0 = p := by
  simp [pinsAt]

@[simp] theorem pinsAt_withPins_succ (s : State) (p : Pins) (k : Nat) :
    pinsAt (s.withPins p) (k + 1) = pinsAt s (k + 1) := by
  simp [pinsAt, List.getD_eq_getElem?_getD]

/-- The request port's action leaves the parameters and the outside world as they are. -/
theorem portAction_outside (s u : State) :
    (portAction s u).params = u.params ∧ (portAction s u).env = u.env ∧ (portAction s u).cycle = u.cycle := by
  rcases portAction_cases s u with h | h | ⟨f, h⟩ | ⟨n, -, -, h⟩ <;> rw [h] <;> exact ⟨rfl, rfl, rfl⟩

theorem fsmEdge_outside (s : State) :
    (fsmEdge s (portAction s)).params = s.params ∧ (fsmEdge s (portAction s)).env = s.env ∧
      (fsmEdge s (portAction s)).cycle = s.cycle := by
  rcases fsmEdge_cases s (portAction s) with ⟨-, h⟩ | ⟨-, h⟩ | ⟨-, h⟩ | ⟨-, h⟩ <;> rw [h]
  · exact portAction_outside s s
  · obtain ⟨h1, -, -, -, -, h6, h7⟩ := transportEdge_sameCommand s
    exact ⟨h1, h6, h7⟩
  · rcases timed_cases s (startFrame s) with ⟨-, h'⟩ | ⟨-, h'⟩ <;> rw [h'] <;> exact ⟨rfl, rfl, rfl⟩
  · exact ⟨rfl, rfl, rfl⟩

/-- Time passes by one cycle in every step, and no step changes the parameters. -/
theorem step_outside {s t : State} (h : step s = .next t) :
    t.params = s.params ∧ t.env = s.env.tail ∧ t.cycle = s.cycle + 1 := by
  obtain ⟨-, rfl⟩ := step_next_iff.1 h
  cases hr : (pinsAt s 0).rst
  · rw [edge_of_no_rst hr]
    obtain ⟨h1, h2, h3⟩ := fsmEdge_outside s
    exact ⟨h1, by simp [h2], by simp [h3]⟩
  · rw [edge_of_rst hr]
    exact ⟨rfl, rfl, rfl⟩

theorem step_pinsAt {s t : State} (h : step s = .next t) (k : Nat) : pinsAt t k = pinsAt s (k + 1) := by
  rw [pinsAt_congr (s := advance s) (by simp [(step_outside h).2.1]), pinsAt_advance]

theorem step_misoAt {s t : State} (h : step s = .next t) (k : Nat) : misoAt t k = misoAt s (k + 1) := by
  obtain ⟨-, he, hc⟩ := step_outside h
  rw [misoAt_congr (s := advance s) (by simp [he]) (by simp [hc]), misoAt_advance]

theorem noReset_step {s t : State} {k : Nat} (h : step s = .next t) (hs : NoReset s (k + 1)) : NoReset t k := by
  intro i hi
  rw [step_pinsAt h]
  exact hs (i + 1) (by omega)

/-! ### Runs -/

@[simp] theorem run_zero (s : State) : run 0 s = .next s := rfl

theorem run_succ_of_step {s t : State} (h : step s = .next t) (k : Nat) : run (k + 1) s = run k t := by
  simp [run, h]

/-- A run in pieces: the first `k` cycles, then the rest from where they end. -/
theorem run_add {s t : State} (k l : Nat) (h : run k s = .next t) : run (k + l) s = run l t := by
  induction k generalizing s with
  | zero => simp only [run_zero, Host.Outcome.next.injEq] at h; subst h; simp
  | succ k ih =>
    rw [Nat.add_right_comm]
    cases hs : step s with
    | next u =>
      rw [run_succ_of_step hs] at h ⊢
      exact ih h
    | fault r => cases r
    | refused r => simp [run, hs] at h

theorem coreRun_succ_next {M : Host.Core} {s t : M.State} (h : M.step s = .next t) (k : Nat) :
    M.run (k + 1) s = M.run k t := by
  simp [Host.Core.run, h]

theorem coreRun_succ_refused {M : Host.Core} {s : M.State} {r : M.Refusal} (h : M.step s = .refused r) (k : Nat) :
    M.run (k + 1) s = .refused r := by
  simp [Host.Core.run, h]

/-- `run` is the host's run of the machine. -/
theorem run_eq_coreRun (k : Nat) (s : State) : run k s = Host.Core.run Sys2Proof.core k s := by
  induction k generalizing s with
  | zero => rfl
  | succ k ih =>
    cases h : step s with
    | next t => exact (run_succ_of_step h k).trans ((ih t).trans (coreRun_succ_next (M := Sys2Proof.core) h k).symm)
    | fault r => cases r
    | refused r =>
      exact (by simp [run, h] : run (k + 1) s = .refused r).trans
        (coreRun_succ_refused (M := Sys2Proof.core) h k).symm

end Sys2Proof.Machine
end

