-- ==== Sys2Proof/Laws/Run.lean ====
section
/-! SUPPORT. Runs inside one phase: time passes, the synchroniser moves, and one counter goes down. -/

namespace Sys2Proof.Machine

/-- `s` after `i` cycles in which nothing happens but time: the pins move on and the synchroniser's flops with them. -/
def elapse (s : State) : Nat → State
  | 0 => s
  | i + 1 => advance { elapse s i with msync := nextSync (elapse s i) }

@[simp] theorem elapse_zero (s : State) : elapse s 0 = s := rfl

theorem elapse_succ (s : State) (i : Nat) :
    elapse s (i + 1) = advance { elapse s i with msync := nextSync (elapse s i) } := rfl

/-- Time changes nothing but the outside world and the synchroniser. -/
theorem elapse_eq (s : State) (i : Nat) :
    elapse s i = { s with msync := (elapse s i).msync, env := s.env.drop i, cycle := s.cycle + i } := by
  induction i with
  | zero => simp
  | succ i ih =>
    rw [elapse_succ, ih]
    simp [advance, Nat.add_assoc]

@[simp] theorem elapse_params (s : State) (i : Nat) : (elapse s i).params = s.params := by rw [elapse_eq]
@[simp] theorem elapse_env (s : State) (i : Nat) : (elapse s i).env = s.env.drop i := by rw [elapse_eq]
@[simp] theorem elapse_cycle (s : State) (i : Nat) : (elapse s i).cycle = s.cycle + i := by rw [elapse_eq]
@[simp] theorem elapse_ctl (s : State) (i : Nat) : (elapse s i).ctl = s.ctl := by rw [elapse_eq]
@[simp] theorem elapse_xs (s : State) (i : Nat) : (elapse s i).xs = s.xs := by rw [elapse_eq]
@[simp] theorem elapse_tcnt (s : State) (i : Nat) : (elapse s i).tcnt = s.tcnt := by rw [elapse_eq]
@[simp] theorem elapse_hcnt (s : State) (i : Nat) : (elapse s i).hcnt = s.hcnt := by rw [elapse_eq]

@[simp] theorem pinsAt_elapse (s : State) (i k : Nat) : pinsAt (elapse s i) k = pinsAt s (i + k) := by
  simp [pinsAt, List.getD_eq_getElem?_getD]

@[simp] theorem misoAt_elapse (s : State) (i k : Nat) : misoAt (elapse s i) k = misoAt s (i + k) := by
  simp [misoAt, Nat.add_assoc]

/-- R105: after at least `SYNC_STAGES` cycles the flops hold the levels of the cycles just past, the latest
first. -/
theorem elapse_msync (s : State) (i : Nat) (h0 : 0 < i) (h : s.params.syncStages ≤ i) :
    (elapse s i).msync = (List.range s.params.syncStages).map fun j => misoAt s (i - 1 - j) := by
  suffices H : ∀ n i, n ≤ i → n ≤ s.params.syncStages →
      (elapse s i).msync.take n = (List.range n).map fun j => misoAt s (i - 1 - j) by
    have hlen : (elapse s i).msync.take s.params.syncStages = (elapse s i).msync := by
      obtain ⟨i, rfl⟩ := Nat.exists_eq_succ_of_ne_zero (show i ≠ 0 by omega)
      rw [Nat.succ_eq_add_one, elapse_succ]
      simp [nextSync]
    rw [← hlen]
    exact H _ i h (le_refl _)
  intro n
  induction n with
  | zero => intro i _ _; simp
  | succ n ih =>
    intro i hi hn
    obtain ⟨i, rfl⟩ := Nat.exists_eq_succ_of_ne_zero (show i ≠ 0 by omega)
    have := ih i (by omega) (by omega)
    rw [Nat.succ_eq_add_one, elapse_succ]
    simp only [advance_msync, nextSync, elapse_params, misoAt_elapse, Nat.add_zero]
    rw [List.take_take, Nat.min_eq_left hn, List.take_succ_cons, this, List.range_succ_eq_map]
    simp only [List.map_cons, List.map_map, Nat.add_sub_cancel, Nat.sub_zero, List.cons.injEq, true_and]
    apply List.map_congr_left
    intro j _
    simp only [Function.comp_apply]
    congr 1
    omega

/-- R105: from then on the synchronised input is the level of `SYNC_STAGES` cycles ago. -/
theorem misoSynced_elapse (s : State) (i : Nat) (h0 : 0 < i) (h : s.params.syncStages ≤ i) :
    misoSynced (elapse s i) = misoAt s (i - s.params.syncStages) := by
  unfold misoSynced
  rw [elapse_params, misoAt_elapse, elapse_msync s i h0 h]
  cases hn : s.params.syncStages with
  | zero => simp
  | succ n =>
    rw [List.getD_cons_succ, List.getD_eq_getElem?_getD, List.getElem?_map,
      List.getElem?_range (Nat.lt_succ_self n), Option.map_some, Option.getD_some]
    congr 1
    omega

/-- A cycle of a busy machine without reset. -/
theorem step_busy {s : State} (hl : s.params.legal = true) (hr : (pinsAt s 0).rst = false) (hc : s.ctl ≠ .idle) :
    step s = .next (advance { fsmEdge s id with msync := nextSync s }) := by
  rw [step_of_legal hl, edge_of_no_rst hr, fsmEdge_busy hc (portAction s) id]

/-- The states in which the delay timer counts (R27). -/
def Timing (s : State) : Prop :=
  s.ctl = .pwait ∨ (s.ctl = .xfer ∧ (s.xs = .pre ∨ s.xs = .setup ∨ s.xs = .gap ∨ s.xs = .hold))

/-- One cycle of a timed phase whose timer has not run out. -/
theorem fsmEdge_timing {s : State} (h : Timing s) (h0 : s.tcnt ≠ 0) :
    fsmEdge s id = { s with tcnt := s.tcnt - 1 } := by
  rcases h with h | ⟨h, hx | hx | hx | hx⟩
  · simp [fsmEdge, h, timed_pos h0]
  all_goals simp [fsmEdge, h, transportEdge, hx, timed_pos h0]

/-- R103: a timed phase that is not reset counts down and does nothing else. -/
theorem run_timing {s : State} (hl : s.params.legal = true) (ht : Timing s) (i : Nat) (hi : i ≤ s.tcnt)
    (hr : NoReset s i) : run i s = .next { elapse s i with tcnt := s.tcnt - i } := by
  induction i with
  | zero => simp
  | succ i ih =>
    rw [run_add i 1 (ih (by omega) fun j hj => hr j (by omega))]
    have hstep : step { elapse s i with tcnt := s.tcnt - i } =
        .next { elapse s (i + 1) with tcnt := s.tcnt - (i + 1) } := by
      have hT : Timing { elapse s i with tcnt := s.tcnt - i } := by simpa [Timing] using ht
      have hp : (pinsAt { elapse s i with tcnt := s.tcnt - i } 0).rst = false := by
        change (pinsAt (elapse s i) 0).rst = false
        rw [pinsAt_elapse]
        exact hr i (by omega)
      have hb : ({ elapse s i with tcnt := s.tcnt - i } : State).ctl ≠ .idle := by
        rcases hT with h | ⟨h, -⟩ <;> rw [h] <;> decide
      rw [step_busy (by simpa using hl) hp hb, fsmEdge_timing hT (by simp only; omega), elapse_succ]
      rfl
    rw [run_succ_of_step hstep, run_zero]

/-- R104: inside a half period of a bit, the half-period counter counts down and nothing else happens. -/
theorem run_half {s : State} (hl : s.params.legal = true) (hc : s.ctl = .xfer) (hx : s.xs = .shift) (i : Nat)
    (hi : i ≤ s.hcnt) (hr : NoReset s i) : run i s = .next { elapse s i with hcnt := s.hcnt - i } := by
  induction i with
  | zero => simp
  | succ i ih =>
    rw [run_add i 1 (ih (by omega) fun j hj => hr j (by omega))]
    have hstep : step { elapse s i with hcnt := s.hcnt - i } =
        .next { elapse s (i + 1) with hcnt := s.hcnt - (i + 1) } := by
      have hp : (pinsAt { elapse s i with hcnt := s.hcnt - i } 0).rst = false := by
        change (pinsAt (elapse s i) 0).rst = false
        rw [pinsAt_elapse]
        exact hr i (by omega)
      have hb : ({ elapse s i with hcnt := s.hcnt - i } : State).ctl ≠ .idle := by
        simp [hc]
      have he : fsmEdge { elapse s i with hcnt := s.hcnt - i } id =
          { elapse s i with hcnt := s.hcnt - i - 1 } := by
        have h0 : s.hcnt - i ≠ 0 := by omega
        simp [fsmEdge, hc, transportEdge, hx, shiftEdge, h0]
      rw [step_busy (by simpa using hl) hp hb, he, elapse_succ]
      rfl
    rw [run_succ_of_step hstep, run_zero]

/-! ### Entering a timed phase -/

/-- A machine in a phase with a least time (R101, R163) is one whose delay timer counts. -/
theorem timing_of_delayUs {s : State} (h : delayUs s ≠ 0) : Timing s := by
  unfold delayUs at h
  cases hc : s.ctl <;> simp only [hc] at h <;> first | exact absurd rfl h | skip
  · refine .inr ⟨hc, ?_⟩
    cases hx : s.xs <;> simp_all [phaseUs]
  · exact .inl hc

/-- An edge in `X_SHIFT` stays there or loads the timer for the gap or the hold (R103). -/
theorem shiftEdge_phase (s : State) (hx : s.xs = .shift) :
    (shiftEdge s).ctl = s.ctl ∧
      ((shiftEdge s).xs = .shift ∨
        ((shiftEdge s).xs = .gap ∧ (shiftEdge s).tcnt = s.params.tGap - 1) ∨
        ((shiftEdge s).xs = .hold ∧ (shiftEdge s).tcnt = s.params.tHold - 1)) := by
  rcases shiftEdge_cases s with ⟨-, h⟩ | ⟨-, -, h⟩ | ⟨-, -, h⟩ <;> rw [h]
  · simp [hx]
  · rcases leadingEdge_cases s with ⟨-, h'⟩ | ⟨-, h'⟩ <;> rw [h'] <;> simp [hx]
  · rcases trailingEdge_cases s with ⟨-, h'⟩ | ⟨-, h'⟩ <;> rw [h']
    · simp [hx]
    · generalize hs : ({ s with
        ph := false, sclk := s.params.spiMode.cpol, hcnt := s.params.sclkHalf - 1
        rxb := if s.params.spiMode.cpha then shiftIn s.params.bitOrder s.rxb (misoSynced s) else s.rxb } : State) = s'
      have hp : s'.params = s.params := by rw [← hs]
      have hct : s'.ctl = s.ctl := by rw [← hs]
      rcases endByte_cases s' with ⟨-, e⟩ | ⟨-, e⟩ <;> rw [e] <;> simp [hp, hct]

/-- The end of a frame answers the command, or loads the timer for the wait between two attempts (R103, R171). -/
theorem frameEnd_phase (s : State) (w : Word32) :
    (frameEnd s w).xs = s.xs ∧
      ((frameEnd s w).ctl = .resp ∨ ((frameEnd s w).ctl = .pwait ∧ (frameEnd s w).tcnt = s.params.tPoll - 1)) := by
  rcases (by cases s.kind <;> simp : s.kind = .frame ∨ s.kind = .poll) with h | h
  · rw [frameEnd_frame h]; exact ⟨rfl, .inl rfl⟩
  · rw [frameEnd_poll h]
    rcases pollAttemptEnd_cases s w with ⟨-, e⟩ | ⟨-, -, e⟩ <;> rw [e] <;> simp

/-- An edge that brings the machine into a timed phase loads the timer with that phase's cycles, less one (R103). -/
theorem fsmEdge_enters_timed (s : State)
    (h : (fsmEdge s (portAction s)).ctl ≠ s.ctl ∨ (fsmEdge s (portAction s)).xs ≠ s.xs)
    (hd : delayUs (fsmEdge s (portAction s)) ≠ 0) :
    (fsmEdge s (portAction s)).tcnt = delayUs (fsmEdge s (portAction s)) * s.params.cycUs - 1 := by
  rcases fsmEdge_cases s (portAction s) with ⟨hc, e⟩ | ⟨hc, e⟩ | ⟨hc, e⟩ | ⟨hc, e⟩ <;>
        rw [e] at h hd ⊢
  · rcases portAction_cases s s with e | e | ⟨f, e⟩ | ⟨n, -, -, e⟩ <;>
        rw [e] at h hd ⊢
    · simp at h
    · simp [delayUs] at hd
    · simp [delayUs, phaseUs, Params.tIdle]
    · simp [delayUs, phaseUs, Params.tIdle]
  · cases hx : s.xs <;> simp only [transportEdge, hx] at h hd ⊢
    · simp at h
    · rcases timed_cases s { s with xs := .setup, csN := false, tcnt := s.params.tSetup - 1 } with ⟨-, e⟩ | ⟨-, e⟩ <;>
        rw [e] at h hd ⊢
      · simp [delayUs, phaseUs, hc, Params.tSetup]
      · simp [hx] at h
    · rcases timed_cases s (beginByte { s with xs := .shift, bidx := 0 } 0) with ⟨-, e⟩ | ⟨-, e⟩ <;>
        rw [e] at h hd ⊢
      · simp [delayUs, phaseUs, hc] at hd
      · simp [hx] at h
    · obtain ⟨h1, h2 | ⟨h2, h3⟩ | ⟨h2, h3⟩⟩ := shiftEdge_phase s hx
      · simp [h1, h2] at h
      · rw [h3]
        have := (shiftEdge_sameCommand s).params
        simp [delayUs, h1, h2, hc, phaseUs, this, Params.tGap]
      · rw [h3]
        have := (shiftEdge_sameCommand s).params
        simp [delayUs, h1, h2, hc, phaseUs, this, Params.tHold]
    · rcases timed_cases s (beginByte { s with xs := .shift, bidx := s.bidx + 1 } (s.bidx.toNat + 1)) with ⟨-, e⟩ | ⟨-, e⟩ <;>
        rw [e] at h hd ⊢
      · simp [delayUs, phaseUs, hc] at hd
      · simp [hx] at h
    · rcases timed_cases s (frameEnd { s with xs := .off, csN := true } s.rxacc) with ⟨-, e⟩ | ⟨-, e⟩ <;>
        rw [e] at h hd ⊢
      · have hp := (frameEnd_sameCommand { s with xs := .off, csN := true } s.rxacc).params
        obtain ⟨h1, h2 | ⟨h2, h3⟩⟩ := frameEnd_phase { s with xs := .off, csN := true } s.rxacc
        · simp [delayUs, h2] at hd
        · rw [h3]; simp [delayUs, h2, hp, Params.tPoll]
      · simp [hx] at h
  · rcases timed_cases s (startFrame s) with ⟨-, e⟩ | ⟨-, e⟩ <;>
        rw [e] at h hd ⊢
    · simp [delayUs, phaseUs, Params.tIdle]
    · simp at h
  · simp [delayUs] at hd

end Sys2Proof.Machine
end

