-- ==== Sys2Proof/Machine/Client.lean ====
section
/-! DEFINITION. The command syntax and the pseudo-instructions of spec/30_encoding.md R83 and R84: notation in front of
the request port. No step reads this file. -/

namespace Sys2Proof.Machine

/-- The opcode bytes that a client writes by name: `SR` is `OP_STATUS_READ` (R83); the other two are the client's own
parameters (R84). -/
structure ClientOpcodes where
  statusRead : Byte
  resultRead : Byte
  warningRead : Byte
deriving DecidableEq, Repr

/-- R84: a client's shorthand. -/
inductive Pseudo where
  /-- `POLL` without an operand -/
  | pollDefault
  | statusPeek
  | regWrite (opcode : Byte) (address : Addr) (data : Word32) (attempts : Nat)
  | regRead (opcode : Byte) (address : Addr) (attempts : Nat)
  /-- the warning tail; the client chooses a finite count (spec/90_conflicts.md C3) -/
  | warningTail (attempts : Nat)
deriving DecidableEq, Repr

/-- R84: the commands that a shorthand stands for. -/
def Pseudo.expand (c : ClientOpcodes) : Pseudo → List Instr
  | .pollDefault => [.poll defaultMaxAttempts]
  | .statusPeek => [.frame c.statusRead 0 0]
  | .regWrite op a d n => [.frame op a d, .poll n]
  | .regRead op a n => [.frame op a 0, .poll n, .frame c.resultRead 0 0]
  | .warningTail n => [.frame c.warningRead 0 0, .poll n, .frame c.resultRead 0 0]

/-- The value of a digit, hexadecimal or less. -/
def digitValue (c : Char) : Option Nat :=
  if '0' ≤ c ∧ c ≤ '9' then some (c.toNat - '0'.toNat)
  else if 'a' ≤ c ∧ c ≤ 'f' then some (c.toNat - 'a'.toNat + 10)
  else if 'A' ≤ c ∧ c ≤ 'F' then some (c.toNat - 'A'.toNat + 10)
  else none

/-- The digits of a number in base `base`, most significant first, after `acc`. -/
def readDigits (base : Nat) : Nat → List Char → Option Nat
  | acc, [] => some acc
  | acc, c :: cs =>
    match digitValue c with
    | some d => if d < base then readDigits base (acc * base + d) cs else none
    | none => none

/-- R83: an operand, hexadecimal with `0x` or decimal, or `SR`. -/
def readNumber (sr : Byte) : List Char → Option Nat
  | [] => none
  | ['S', 'R'] => some sr.toNat
  | '0' :: 'x' :: c :: cs => readDigits 16 0 (c :: cs)
  | c :: cs => readDigits 10 0 (c :: cs)

/-- R83: an operand that must fit a field of `width` bits. -/
def readOperand (sr : Byte) (width : Nat) (cs : List Char) : Option Nat :=
  match readNumber sr cs with
  | some n => if n < 2 ^ width then some n else none
  | none => none

/-- The words of a text between the characters that `sep` marks. -/
def splitOn (sep : Char → Bool) : List Char → List (List Char)
  | [] => [[]]
  | c :: cs =>
    if sep c then [] :: splitOn sep cs
    else
      match splitOn sep cs with
      | w :: ws => (c :: w) :: ws
      | [] => [[c]]

/-- A text without the blanks at its two ends. -/
def trim (cs : List Char) : List Char :=
  ((cs.dropWhile (· = ' ')).reverse.dropWhile (· = ' ')).reverse

/-- R83: one command a line, its operands separated by commas, `;` beginning a comment; the two shorthands of R84 that
stand for one command are read as well. -/
def assemble (sr : Byte) (cntW : Nat) (line : List Char) : Option Instr :=
  let text := trim (line.takeWhile (· ≠ ';'))
  let name := text.takeWhile (· ≠ ' ')
  let operands := (splitOn (· = ',') (text.drop name.length)).map trim
  match name, operands with
  | ['F', 'R', 'A', 'M', 'E'], [a, b, c] =>
    match readOperand sr 8 a, readOperand sr 16 b, readOperand sr 32 c with
    | some op, some ad, some d => some (.frame (BitVec.ofNat 8 op) (BitVec.ofNat 16 ad) (BitVec.ofNat 32 d))
    | _, _, _ => none
  | ['P', 'O', 'L', 'L'], [[]] => some (.poll defaultMaxAttempts)
  | ['P', 'O', 'L', 'L'], [a] =>
    match readOperand sr cntW a with
    | some n => some (.poll n)
    | none => none
  | ['S', 'T', 'A', 'T', 'U', 'S', '_', 'P', 'E', 'E', 'K'], [[]] => some (.frame sr 0 0)
  | _, _ => none

end Sys2Proof.Machine
end

