-- ==== Sys2Proof/Tests/Slice0.lean ====
section
/-! SUPPORT. Tests of single steps and decodings, their expected results from spec/95_test_vectors.md, and for each
statement a concrete state that meets its hypotheses. -/

namespace Sys2Proof.Tests
open Sys2Proof Sys2Proof.Machine

/-! ### Well-formedness: one ill-formed term for each check -/

theorem test_ref_is_legal : Params.ref.legal = true := by decide
theorem test_zero_clock_refused : { Params.ref with cycUs := 0 }.timesLegal = false := by decide
theorem test_zero_gap_refused : { Params.ref with tGapUs := 0 }.timesLegal = false := by decide
theorem test_zero_half_refused : { Params.ref with sclkHalf := 0 }.clockLegal = false := by decide
theorem test_deep_synchroniser_refused : { Params.ref with syncStages := 1 }.clockLegal = false := by decide
theorem test_field_outside_refused : { Params.ref with lCode := 17 }.fieldsInside = false := by decide
theorem test_overlap_refused : { Params.ref with pError := 23 }.fieldsDisjoint = false := by decide
theorem test_narrow_count_refused : { Params.ref with cntW := 5 }.countLegal = false := by decide
theorem test_wide_budget_refused : (Instr.poll 65536).fits 16 = false := by decide
theorem test_poll_zero_refused : (Instr.poll 0).legalRequest = false := by decide
theorem test_illegal_configuration_stops :
    step (State.resetOf { Params.ref with cntW := 5 }) = .refused .illegalConfiguration := by rfl

/-! ### Decoding, from the requests of spec/95_test_vectors.md -/

-- V-F1, V-F4 (the unused count is ignored)
theorem test_decode_frame : decodeTableWord 80 0x00000123456789ABCDE = some (.frame 0x12 0x3456 0x789ABCDE) := by decide
theorem test_decode_frame_ignores_count :
    decodeTableWord 80 0x0FFFF123456789ABCDE = some (.frame 0x12 0x3456 0x789ABCDE) := by decide
-- V-P5, V-P9 (the unused opcode, address and data are ignored)
theorem test_decode_poll : decodeTableWord 80 0x1002800000000000000 = some (.poll 40) := by decide
theorem test_decode_poll_ignores_frame : decodeTableWord 80 0x1FFFFABCDEF01234567 = some (.poll 65535) := by decide
-- V-X1, V-X2
theorem test_decode_reserved :
    decode 16 0x2000000000000000000 = .error (.reservedCommand 2) ∧
    decode 16 0x3000501000200000003 = .error (.reservedCommand 3) := ⟨rfl, rfl⟩
theorem test_encode :
    encode 16 (.frame 0x12 0x3456 0x789ABCDE) = 0x00000123456789ABCDE ∧
    encode 16 (.poll 40) = 0x1002800000000000000 := by decide

/-! ### The status decoder, vectors V-D3 to V-D8 and V-D12 -/

theorem test_status_vectors :
    decodeStatus Params.ref 0x0C000001 = ⟨true, false, true, false, false, 0, 1⟩ ∧
    decodeStatus Params.ref 0x04000001 = ⟨false, false, false, false, false, 0, 0⟩ ∧
    decodeStatus Params.ref 0xFFFFFFFF = ⟨true, true, true, true, true, 0xFF, 0xFFFF⟩ ∧
    decodeStatus Params.ref 0xF7FFFFFF = ⟨false, true, false, false, true, 0xFF, 0⟩ ∧
    decodeStatus Params.ref 0x01040000 = ⟨false, false, false, false, true, 4, 0⟩ ∧
    decodeStatus Params.ref 0x0A0007F3 = ⟨true, false, false, true, false, 0, 0x07F3⟩ ∧
    decodeStatus Params.ref 0x0E00FFFF = ⟨true, false, true, true, false, 0, 0xFFFF⟩ := by decide
-- V-D8: base 3, all seven flags
theorem test_code_fields :
    (decodeStatus Params.ref 0x0A0007F3).errBase = 3 ∧ (decodeStatus Params.ref 0x0A0007F3).errFlags = 0x7F ∧
    ((decodeStatus Params.ref 0x0A0007F3).errorFlags Params.ref).length = 7 := by decide

/-! ### Small states -/

/-- The reference configuration with every delay one cycle and a concrete status-read opcode. -/
def small : Params :=
  { Params.ref with
    tIdleUs := 1, tSetupUs := 1, tHoldUs := 1, tGapUs := 1, tPollUs := 1, opStatusRead := 0x40 }

/-- A ready machine whose client offers the bundle `req`. -/
def offering (req : Nat) : State := { State.resetOf small with env := [{ Pins.quiet with reqValid := true, req := req }] }

/-- The last cycle of the frame of an attempt: `w` was received, of a budget of `n` no attempt is completed yet. -/
def attemptEnding (w : Word32) (n : Nat) : State :=
  { State.resetOf small with
    ctl := .xfer, xs := .hold, csN := false, bidx := 6, kind := .poll, frm := statusReadFrame small, nmax := n
    rxacc := w }

/-- The cycle of a FRAME that ends in the sampling edge of the first bit of byte 0; the chip drives 1. -/
def sampling : State :=
  { State.resetOf small with
    ctl := .xfer, xs := .shift, csN := false, frm := 0x12, env := [{ Pins.quiet with miso := some true }] }

/-- `s` with `rst` high in the present cycle. -/
def resetting (s : State) : State := s.withPins { pinsAt s 0 with rst := true }

/-- What `f` says of the next state of `s`. -/
def after (s : State) (f : State → Bool) : Bool :=
  match step s with
  | .next t => f t
  | _ => false

/-! ### One step -/

-- V-F1: the wire frame is loaded and the idle phase begins
theorem test_frame_accepted :
    after (offering 0x00000123456789ABCDE) (fun t => t.frm == 0x123456789ABCDE && t.xs == .pre && t.csN) = true := by
  decide
-- R100: the response of a FRAME; the status registers stay
theorem test_frame_answered :
    after { attemptEnding 0x0C000002 0 with kind := .frame }
      (fun t => t.rsp == ⟨0x0C000002, false, 0, false⟩ && rspValid t && t.csN && t.stRaw == 0) = true := by decide
-- V-P2: done with error on the only attempt
theorem test_poll_done :
    after (attemptEnding 0x0C000001 1)
      (fun t => t.rsp == ⟨0x0C000001, true, 1, false⟩ && t.st == ⟨true, false, true, false, false, 0, 1⟩) = true := by
  decide
-- V-P4, first attempt: not done, so the status is written through and POLL waits
theorem test_poll_waits :
    after (attemptEnding 0x04000001 3)
      (fun t => t.ctl == .pwait && t.stRaw == 0x04000001 && t.st == Status.zero && t.att == 1 && !rspValid t) = true := by
  decide
-- V-X1, V-X4: the illegal response, one cycle after acceptance
theorem test_reserved_illegal :
    after (offering 0x2000000000000000000) (fun t => t.rsp == ⟨0, false, 0, true⟩ && rspValid t && t.xs == .off) = true := by
  decide
theorem test_poll_zero_illegal :
    after (offering 0x10000123456789ABCDE) (fun t => t.rsp == ⟨0, false, 0, true⟩ && t.kind == .frame && t.frm == 0) =
      true := by decide
-- R104: the leading edge raises `sclk` and samples the chip's bit at the low end
theorem test_leading_edge_samples : after sampling (fun t => t.rxb == 1 && t.sclk && t.ph) = true := by decide
-- V-R2: a reset in the middle of a command
theorem test_reset_abandons :
    after (resetting sampling) (fun t => t.ctl == .idle && t.xs == .off && t.csN && !t.sclk && !rspValid t) = true := by decide
-- R83
theorem test_assemble :
    assemble 0x40 16 ['P', 'O', 'L', 'L', ' ', ' ', '0', 'x', '2', '8', ' ', ';', 'n'] = some (.poll 40) ∧
    assemble 0x40 16 ['F', 'R', 'A', 'M', 'E', ' ', 'S', 'R', ',', '0', 'x', '1', 'f', ',', ' ', '7'] =
      some (.frame 0x40 0x1F 7) ∧
    assemble 0x40 16 ['P', 'O', 'L', 'L', ' ', '7', '0', '0', '0', '0'] = none := by decide

-- R84: `STATUS_PEEK` and `REG_READ op, addr, 40`
theorem test_pseudo :
    Pseudo.expand ⟨0x40, 0x41, 0x42⟩ .statusPeek = [.frame 0x40 0 0] ∧
    Pseudo.expand ⟨0x40, 0x41, 0x42⟩ (.regRead 0x21 0x0010 40) =
      [.frame 0x21 0x0010 0, .poll 40, .frame 0x41 0 0] := by decide

/-! ### Witnesses: for each statement with hypotheses, a concrete state and operands that meet them all -/

theorem small_legal : small.legal = true := by decide

/-- A ready machine of the small configuration, nothing offered and no reset to come. -/
def ready : State := State.resetOf small

theorem ready_ready : Ready ready := ⟨by decide, rfl, rfl⟩

theorem reset_ready : Ready State.reset := ⟨by decide, rfl, rfl⟩

theorem ready_noReset (k : Nat) : NoReset ready k := fun _ _ => rfl

theorem reset_noReset (k : Nat) : NoReset State.reset k := fun _ _ => rfl

/-- The small machine after the acceptance of a FRAME meets the invariant, in the last cycle of `X_PRE`. -/
def preEnding : State := { State.resetOf small with ctl := .xfer, xs := .pre, frm := 0x123456789ABCDE }

theorem preEnding_inv : preEnding.Inv := by
  constructor <;> decide

theorem attemptEnding_inv : (attemptEnding 0x0C000001 2).Inv := by
  constructor <;> decide

theorem attemptEnding_ends (w : Word32) (n : Nat) : AttemptEnds (attemptEnding w n) := ⟨rfl, rfl, rfl, rfl⟩

/-- The small machine with no delay running and its client offering a FRAME: it meets the invariant. -/
theorem offering_inv : (offering 0x00000123456789ABCDE).Inv := by
  constructor <;> decide

-- DecodeOfEncodeGivesCommand: FRAME, and POLL at both ends of its range
theorem witness_fits :
    (Instr.frame 0xFF 0xFFFF 0xFFFFFFFF).fits 16 = true ∧ (Instr.poll 0).fits 16 = true ∧
    (Instr.poll 65535).fits 16 = true := by decide

-- DecoderReadsOnlyUsedFields
theorem witness_count_in_range : (0 : Nat) < 2 ^ 16 ∧ 65535 < 2 ^ 16 := by decide

-- WireFrameIsSevenBytes and EightSamplesFillTheByte
theorem witness_last_bit : (6 : Nat) < 7 ∧ (7 : Nat) < 8 := by decide

-- StatusFieldsBitByBit, StatusGatedWhileNotDone
theorem witness_not_done : (0xF7FFFFFF : Word32).getLsbD Params.ref.pDone = false := by decide

-- UnassignedBitsNeverMatter: a legal layout, two words alike in the assigned bits, a done word, two statuses alike in
-- the low 11 bits of their codes
theorem witness_unassigned :
    Params.ref.legal = true ∧
    (∀ i, i < 32 → assignedBit Params.ref i = true → (0x0800F800 : Word32).getLsbD i = (0xE800F800 : Word32).getLsbD i) ∧
    (0x0800F800 : Word32).getLsbD Params.ref.pDone = true ∧
    (∀ i, i < 11 → Status.zero.code.getLsbD i = ({ Status.zero with code := 0xF800 } : Status).code.getLsbD i) := by
  decide

-- ResetPinLoadsEveryResetValue, ResetAbandonsTheCommand: `rst` rises while a byte is being shifted
theorem witness_reset_pin :
    (resetting sampling).params.legal = true ∧ (pinsAt (resetting sampling) 0).rst = true ∧
    (pinsAt (resetting sampling) 1).rst = false := by decide

theorem witness_reset_no_request (k : Nat) :
    ∀ i, 1 ≤ i → i ≤ k → (pinsAt (resetting sampling) i).reqValid = false := by
  intro i hi _
  obtain ⟨j, rfl⟩ := Nat.exists_eq_add_of_le' hi
  rfl

-- ReadyExactlyWhenIdle: a ready machine with a command offered, and a busy one
theorem witness_ready_and_offered :
    (outputs (offering 0x1000300000000000000)).reqReady = true ∧
    (pinsAt (offering 0x1000300000000000000) 0).reqValid = true ∧
    decode 16 (pinsAt (offering 0x1000300000000000000) 0).req = .ok (.poll 3) ∧
    (outputs sampling).reqReady = false := ⟨rfl, rfl, rfl, rfl⟩

-- StepRunsTheOfferedCommand
theorem witness_table_word :
    State.reset.params.cntW = 16 ∧ decodeTableWord 80 0x1000300000000000000 = some (.poll 3) ∧
    ∃ t, step (State.reset.withFetchWord 80 0x1000300000000000000) = .next t :=
  ⟨rfl, by decide, _, rfl⟩

-- IdleCycleKeepsEveryRegister
theorem witness_idle : Ready State.reset ∧ (pinsAt State.reset 0).reqValid = false := ⟨reset_ready, rfl⟩

-- FrameIsAccepted, PollZeroIsIllegal
theorem witness_ready : Ready State.reset := reset_ready

-- PollIsAccepted, PollAnswersTheLastWord, PollKeepsItsSchedule: both ends of the budget
theorem witness_poll (k : Nat) :
    Ready State.reset ∧ 1 ≤ 1 ∧ 1 < 2 ^ State.reset.params.cntW ∧ 1 ≤ 65535 ∧ 65535 < 2 ^ State.reset.params.cntW ∧
    NoReset State.reset k :=
  ⟨reset_ready, by decide, by decide, by decide, by decide, reset_noReset k⟩

-- IllegalRequestsGetTheIllegalResponse: one for each kind
theorem witness_illegal_requests :
    (Ready (offering 0x2000000000000000000) ∧ NoReset (offering 0x2000000000000000000) 3 ∧
      (pinsAt (offering 0x2000000000000000000) 0).reqValid = true ∧ cmdField 16 0x2000000000000000000 = 2) ∧
    (Ready (offering 0x3000501000200000003) ∧ cmdField 16 0x3000501000200000003 = 3) ∧
    (Ready (offering 0x10000123456789ABCDE) ∧ cmdField 16 0x10000123456789ABCDE = 1 ∧
      countField 16 0x10000123456789ABCDE = 0) := by
  have hr : ∀ req, NoReset (offering req) 3 := by
    intro req i hi
    match i, hi with
    | 0, _ => rfl
    | 1, _ => rfl
    | 2, _ => rfl
  refine ⟨⟨⟨by decide, rfl, rfl⟩, hr _, rfl, by decide⟩, ⟨⟨by decide, rfl, rfl⟩, by decide⟩,
    ⟨by decide, rfl, rfl⟩, by decide, by decide⟩

-- FrameAnswersTheReceivedBytes, FrameNeverWritesStatus, PollOnceChecksOnce
theorem witness_frame (k : Nat) : Ready State.reset ∧ NoReset State.reset k := ⟨reset_ready, reset_noReset k⟩

-- FrameKeepsItsSchedule: a ready machine that meets the invariant, with no reset to come
theorem witness_frame_schedule (k : Nat) :
    (offering 0x00000123456789ABCDE).Inv ∧ Ready (offering 0x00000123456789ABCDE) ∧
    NoReset (offering 0x00000123456789ABCDE) k := by
  refine ⟨offering_inv, ⟨by decide, rfl, rfl⟩, ?_⟩
  intro i _
  cases i <;> rfl

-- FrameSendsItsBits: the first bit and the last one
theorem witness_frame_bits (k : Nat) :
    (offering 0x00000123456789ABCDE).Inv ∧ Ready (offering 0x00000123456789ABCDE) ∧
    NoReset (offering 0x00000123456789ABCDE) k ∧ ((0 : Nat) < 7 ∧ (0 : Nat) < 8) ∧ ((6 : Nat) < 7 ∧ (7 : Nat) < 8) :=
  ⟨(witness_frame_schedule k).1, (witness_frame_schedule k).2.1, (witness_frame_schedule k).2.2, by decide, by decide⟩

-- PollSendsStatusReadFrames: the first attempt is always made
theorem witness_poll_first_attempt : 0 < (pollOutcome ready 1).attempts := by decide

/-- The chip holds `miso` low for longer than a frame of the small configuration lasts. -/
def stuckLow : State := { State.resetOf small with env := List.replicate 150 { Pins.quiet with miso := some false } }

-- ExhaustedPollClearsToUnknown: a bus stuck at 0
theorem witness_exhausted :
    Ready stuckLow ∧ NoReset stuckLow 130 ∧ pollCycles small 1 + 2 ≤ 130 ∧
    (∀ i, 1 ≤ i → i ≤ 1 → (attemptWord stuckLow i).getLsbD stuckLow.params.pDone = false) := by
  refine ⟨⟨by decide, rfl, rfl⟩, by unfold NoReset; decide, by decide, ?_⟩
  intro i h1 h2
  obtain rfl : i = 1 := by omega
  decide

-- PollLoopStopsAtDoneOrBudget
theorem witness_budget : (1 : Nat) ≤ 1 := by decide

-- EveryAttemptWritesStatusThrough: an attempt that answers the POLL, and one that does not
theorem witness_attempt_ends :
    (attemptEnding 0x0C000001 1).params.legal = true ∧ (pinsAt (attemptEnding 0x0C000001 1) 0).rst = false ∧
    AttemptEnds (attemptEnding 0x0C000001 1) ∧ (decodeStatus small 0x0C000001).done = true ∧
    AttemptEnds (attemptEnding 0x04000001 3) ∧ (decodeStatus small 0x04000001).done = false ∧
    nextAttempt (attemptEnding 0x04000001 3) ≠ 3 :=
  ⟨by decide, rfl, attemptEnding_ends _ _, by decide, attemptEnding_ends _ _, by decide, by decide⟩

-- OnlyAttemptsAndResetWriteStatus, CommandRegistersHeld: the last cycle of a FRAME
theorem witness_frame_ends :
    ∃ t, step { attemptEnding 0x0C000001 0 with kind := .frame } = .next t ∧
      ¬ AttemptEnds { attemptEnding 0x0C000001 0 with kind := .frame } ∧
      ({ attemptEnding 0x0C000001 0 with kind := .frame } : State).ctl ≠ .idle :=
  ⟨_, rfl, by unfold AttemptEnds; decide, by decide⟩

-- ResponseHeldUntilTheNext: the response cycle
theorem witness_response_cycle :
    ∃ t, step { State.resetOf small with ctl := .resp } = .next t ∧
      (pinsAt { State.resetOf small with ctl := .resp } 0).rst = false ∧ t.ctl ≠ .resp :=
  ⟨_, rfl, rfl, by decide⟩

/-- `offering` of a FRAME, and in the cycle after its acceptance another request. -/
def offeringTwice : List Pins :=
  [{ Pins.quiet with reqValid := true, req := 0x00000123456789ABCDE }, { Pins.quiet with reqValid := true, req := 5 }]

-- BusyRequestsHaveNoEffect: in an idle cycle the pins agree, in the busy one after it they differ in the request
theorem witness_busy_request :
    (∀ i, i < 2 →
      pinsAt { offering 0x00000123456789ABCDE with env := offeringTwice } i = pinsAt (offering 0x00000123456789ABCDE) i ∨
      ((∃ v r, pinsAt { offering 0x00000123456789ABCDE with env := offeringTwice } i =
          { pinsAt (offering 0x00000123456789ABCDE) i with reqValid := v, req := r }) ∧
        ∀ u, run i (offering 0x00000123456789ABCDE) = .next u → u.ctl ≠ .idle)) ∧
    ∃ u, run 2 (offering 0x00000123456789ABCDE) = .next u := by
  refine ⟨?_, _, rfl⟩
  intro i hi
  match i, hi with
  | 0, _ => exact .inl rfl
  | 1, _ =>
    refine .inr ⟨⟨true, 5, rfl⟩, fun u h => ?_⟩
    cases h
    decide

-- AttemptCounterNeverWraps
theorem witness_counter :
    (attemptEnding 0x0C000001 2).Inv ∧ (∃ t, step (attemptEnding 0x0C000001 2) = .next t) ∧
    (pinsAt (attemptEnding 0x0C000001 2) 0).rst = false ∧ AttemptEnds (attemptEnding 0x0C000001 2) :=
  ⟨attemptEnding_inv, ⟨_, rfl⟩, rfl, attemptEnding_ends _ _⟩

-- LegalMachineNeverStops, ResetStateMeetsTheInvariant
theorem witness_legal_and_illegal :
    small.legal = true ∧ (State.resetOf { small with cntW := 5 }).params.legal = false := by decide

-- StepKeepsTheInvariant, ClockRestsOutsideTheBytes
theorem witness_invariant_step :
    preEnding.Inv ∧ (∃ t, step preEnding = .next t) ∧ preEnding.xs ≠ .shift ∧ preEnding.csN = true :=
  ⟨preEnding_inv, ⟨_, rfl⟩, by decide, rfl⟩

-- SelectHighBeforeItFalls: a FRAME is accepted in one cycle, `X_PRE` lasts one, then `cs_n` falls
theorem witness_select_falls :
    (offering 0x00000123456789ABCDE).Inv ∧ (offering 0x00000123456789ABCDE).xs ≠ .pre ∧
    ∃ u v, run 1 (offering 0x00000123456789ABCDE) = .next u ∧ step u = .next v ∧ u.csN = true ∧ v.csN = false :=
  ⟨offering_inv, by decide, _, _, rfl, rfl, rfl, rfl⟩

-- MisoMattersOnlyWhenSampled: a cycle that samples nothing, and a machine with a synchroniser
theorem witness_not_sampling :
    (∃ t, step preEnding = .next t) ∧ ¬ Sampling preEnding ∧
    (∃ t, step (State.resetOf { small with sclkHalf := 2, syncStages := 1 }) = .next t) ∧
    0 < (State.resetOf { small with sclkHalf := 2, syncStages := 1 }).params.syncStages :=
  ⟨⟨_, rfl⟩, by unfold Sampling; decide, ⟨_, rfl⟩, by decide⟩

-- EveryCommandIsAnsweredBeforeTheNext: the response cycle and the idle cycle after it
theorem witness_answered :
    ({ State.resetOf small with ctl := .resp } : State).ctl ≠ .idle ∧
    NoReset { State.resetOf small with ctl := .resp } 1 ∧
    ∃ u, run 1 { State.resetOf small with ctl := .resp } = .next u ∧ u.ctl = .idle :=
  ⟨by decide, fun _ _ => rfl, _, rfl, rfl⟩

-- ResponseComesAfterTheBusActivity
theorem witness_response_rest :
    ({ State.resetOf small with ctl := .resp } : State).Inv ∧
    (outputs { State.resetOf small with ctl := .resp }).rspValid = true := by
  refine ⟨?_, rfl⟩
  constructor <;> decide

/-- The reference configuration with two clock cycles a microsecond and a concrete status-read opcode. -/
def fast : Params := { small with cycUs := 2 }

/-- A ready machine of that configuration to which a FRAME is offered. -/
def fastOffering : State :=
  { State.resetOf fast with env := [{ Pins.quiet with reqValid := true, req := 0x00000123456789ABCDE }] }

/-- An attempt of that configuration that ends without done: the step leads into `C_PWAIT`. -/
def fastAttempt : State := { attemptEnding 0x04000001 3 with params := fast, frm := statusReadFrame fast }

theorem fastOffering_inv : fastOffering.Inv := by
  constructor <;> decide

theorem fastAttempt_inv : fastAttempt.Inv := by
  constructor <;> decide

-- DelaysMeetTheirMicroseconds: a phase of each kind; a step into `X_PRE` and one into `C_PWAIT`, each at the last cycle
-- of the delay on the fastest clock; `cs_n` falling at the end of an idle phase
theorem witness_phases :
    (1 ≤ fast.cycUs ∧ 2 ≤ fast.cycUs) ∧ (Xs.pre, 2) ∈ framePhases fast ∧ (Xs.setup, 2) ∈ framePhases fast ∧
    (Xs.gap, 2) ∈ framePhases fast ∧ (Xs.hold, 2) ∈ framePhases fast := by decide

theorem witness_phase_entered :
    (fastOffering.Inv ∧ ∃ u, step fastOffering = .next u ∧ (u.ctl ≠ fastOffering.ctl ∨ u.xs ≠ fastOffering.xs) ∧
      1 < delayUs u * 2 ∧ NoReset u 1) ∧
    (fastAttempt.Inv ∧ ∃ u, step fastAttempt = .next u ∧ (u.ctl ≠ fastAttempt.ctl ∨ u.xs ≠ fastAttempt.xs) ∧
      1 < delayUs u * 2 ∧ NoReset u 1) :=
  ⟨⟨fastOffering_inv, _, rfl, by decide, by decide, fun _ _ => rfl⟩,
    ⟨fastAttempt_inv, _, rfl, by decide, by decide, fun _ _ => rfl⟩⟩

theorem witness_select_falls_fast :
    fastOffering.Inv ∧ 2 ≤ fastOffering.params.cycUs ∧ fastOffering.xs ≠ .pre ∧
    ∃ u v, run 2 fastOffering = .next u ∧ step u = .next v ∧ u.csN = true ∧ v.csN = false :=
  ⟨fastOffering_inv, by decide, by decide, _, _, rfl, rfl, rfl, rfl⟩

end Sys2Proof.Tests
end

/-! # The state of the machine (spec/10_state.md): its invariant, its held registers and its request port -/

namespace Sys2Proof.Machine

/-! ## The clock cycle -/

theorem kind_frame_or_poll (k : Kind) : k = .frame ∨ k = .poll := by
  cases k <;> simp

theorem step_of_no_rst {s t : State} (h : step s = .next t) (hr : (pinsAt s 0).rst = false) :
    t = advance { fsmEdge s (portAction s) with msync := nextSync s } := by
  obtain ⟨-, rfl⟩ := step_next_iff.1 h
  exact edge_of_no_rst hr _

theorem clock_ready {s : State} (h : Ready s) (a : State → State) :
    clock s a = .next (advance { a s with msync := nextSync s }) := by
  obtain ⟨hl, hc, hr⟩ := h
  rw [clock_of_legal hl, edge_of_no_rst hr, fsmEdge_idle hc]

theorem step_of_no_request {s : State} (h : (pinsAt s 0).reqValid = false) : step s = clock s id := by
  simp [step, offered, h, idleCycle]

theorem step_of_request {s : State} {i : Instr} (hv : (pinsAt s 0).reqValid = true)
    (hd : decode s.params.cntW (pinsAt s 0).req = .ok i) : step s = exec i s := by
  simp [step, offered, hv, hd]

theorem countOperand_of_lt {p : Params} {n : Nat} (h : n < 2 ^ p.cntW) : countOperand p n = n :=
  Nat.mod_eq_of_lt h

/-! ## The invariant of a clock edge, one lemma per operation

Every lemma names the clauses of `State.Inv` that its operation puts at risk; the others hold as before. -/

/-- R36: the reset state of a legal configuration. -/
theorem resetOf_inv {p : Params} (hp : p.legal = true) : (State.resetOf p).Inv where
  legal := hp
  decoded := (decodeStatus_zero p).symm
  xfer := by simp
  select := by simp
  rest := fun _ => ⟨rfl, rfl⟩
  clockHalf := by simp
  halfCount := (legal_clock hp).1
  byteIndex := by simp
  gapIndex := by simp
  holdIndex := by simp
  timer := Nat.two_pow_pos _
  sync := by simp
  counts := ⟨Nat.two_pow_pos _, Nat.two_pow_pos _, Nat.two_pow_pos _⟩
  budget := by simp
  pollFrame := by simp
  frameKind := by simp

/-- R28: the half-period counter is loaded with a value inside the half period. -/
theorem sclkHalf_pred_lt {p : Params} (hp : p.legal = true) : p.sclkHalf - 1 < p.sclkHalf :=
  Nat.sub_one_lt_of_lt (legal_clock hp).1

section
variable {s : State} (h : s.Inv)
include h

/-- R24, R103: outside `C_XFER` there is no frame. -/
theorem xs_off_of_ctl (hc : s.ctl ≠ .xfer) : s.xs = .off := by
  by_contra hx
  exact hc (h.xfer.2 hx)

/-- The outside world is in no clause, and the synchroniser only in its own. -/
theorem advance_inv {l : List Bool} (hl : l.length = s.params.syncStages) :
    (advance { s with msync := l }).Inv :=
  { h with sync := hl }

theorem nextSync_length : (nextSync s).length = s.params.syncStages := by
  simp [nextSync, h.sync]

theorem countdown_inv : ({ s with tcnt := s.tcnt - 1 } : State).Inv :=
  { h with timer := (Nat.sub_le _ _).trans_lt h.timer }

theorem timed_inv {d : State} (hd : d.Inv) : (timed s d).Inv := by
  rcases timed_cases s d with ⟨-, e⟩ | ⟨-, e⟩ <;> rw [e]
  · exact hd
  · exact countdown_inv h

/-! ### The request port and the control FSM -/

/-- R26: the registers of a FRAME allow every state of the control FSM but the wait between attempts. -/
theorem frameKind_of_ne_pwait {c : Ctl} (hw : c ≠ .pwait) (hk : s.kind = .frame) :
    s.nmax = 0 ∧ s.att = 0 ∧ c ≠ .pwait := by
  obtain ⟨hn, ha, -⟩ := h.frameKind hk
  exact ⟨hn, ha, hw⟩

/-- R169: while a frame of a POLL runs, its budget is not used up. -/
theorem att_lt_of_frame (hk : s.kind = .poll) (hx : s.xs ≠ .off) : s.att < s.nmax :=
  (h.budget hk).2 (.inl (h.xfer.2 hx))

/-- R24: outside a frame the control FSM may go to `C_IDLE` or `C_RESP`. -/
theorem setCtl_inv (hc : s.ctl ≠ .xfer) {c : Ctl} (hx : c ≠ .xfer) (hw : c ≠ .pwait) :
    ({ s with ctl := c } : State).Inv :=
  { h with
    xfer := by simp [hx, xs_off_of_ctl h hc]
    budget := fun hk => ⟨(h.budget hk).1, by simp [hx, hw]⟩
    frameKind := frameKind_of_ne_pwait h hw }

theorem illegalRequest_inv (hc : s.ctl ≠ .xfer) : (illegalRequest s).Inv := by
  obtain ⟨hn, ha, -⟩ := h.counts
  exact { setCtl_inv h hc (c := .resp) (by decide) (by decide) with
    counts := ⟨hn, ha, Nat.two_pow_pos _⟩ }

/-- R103, R169: a frame may start while the budget of a POLL is not used up. -/
theorem startFrame_inv (hc : s.ctl ≠ .xfer) (hb : s.kind = .poll → s.att < s.nmax) : (startFrame s).Inv :=
  { h with
    xfer := by simp
    select := by simp
    rest := fun _ => h.rest (by simp [xs_off_of_ctl h hc])
    clockHalf := by simp
    gapIndex := by simp
    holdIndex := by simp
    timer := (timer_loads_fit h.legal).1
    budget := fun hk => ⟨(h.budget hk).1, fun _ => hb hk⟩
    frameKind := frameKind_of_ne_pwait h (by simp) }

/-- R26: an idle machine may hold any legal command with no attempt made. -/
theorem commandRegisters_inv (hc : s.ctl = .idle) {k : Kind} {f : WireFrame} {n : Nat} (hn : n < 2 ^ s.params.cntW)
    (hf : k = .frame → n = 0) (hp : k = .poll → f = statusReadFrame s.params) :
    ({ s with kind := k, frm := f, nmax := n, att := 0 } : State).Inv := by
  obtain ⟨-, -, hrsp⟩ := h.counts
  exact { h with
    counts := ⟨hn, Nat.two_pow_pos _, hrsp⟩
    budget := fun _ => ⟨Nat.zero_le _, by simp [hc]⟩
    pollFrame := hp
    frameKind := fun hk => ⟨hf hk, rfl, by simp [hc]⟩ }

theorem loadCommand_inv (hc : s.ctl = .idle) {k : Kind} {f : WireFrame} {n : Nat} (hn : n < 2 ^ s.params.cntW)
    (hf : k = .frame → n = 0) (hp : k = .poll → 0 < n ∧ f = statusReadFrame s.params) :
    (loadCommand s k f n).Inv :=
  startFrame_inv (commandRegisters_inv h hc hn hf fun hk => (hp hk).2) (by simp [hc]) fun hk => (hp hk).1

theorem portAction_inv (hc : s.ctl = .idle) : (portAction s s).Inv := by
  rcases portAction_cases s s with e | e | ⟨f, e⟩ | ⟨n, hpos, hn, e⟩ <;> rw [e]
  · exact h
  · exact illegalRequest_inv h (by simp [hc])
  · exact loadCommand_inv h hc (Nat.two_pow_pos _) (fun _ => rfl) (by simp)
  · exact loadCommand_inv h hc hn (by simp) fun _ => ⟨hpos, rfl⟩

/-- R171: the wait between two attempts ends in the next attempt's frame. -/
theorem pwait_inv (hc : s.ctl = .pwait) : (timed s (startFrame s)).Inv :=
  timed_inv h (startFrame_inv h (by simp [hc]) fun hk => (h.budget hk).2 (.inr hc))

/-! ### The transport FSM -/

theorem pre_inv (hx : s.xs = .pre) :
    (timed s { s with xs := .setup, csN := false, tcnt := s.params.tSetup - 1 }).Inv := by
  obtain ⟨-, hsetup, -⟩ := timer_loads_fit h.legal
  exact timed_inv h
    { h with
      xfer := by simpa [hx] using h.xfer
      select := by simp
      rest := fun _ => h.rest (by simp [hx])
      clockHalf := by simp
      gapIndex := by simp
      holdIndex := by simp
      timer := hsetup }

/-- R103: a byte begins in a phase in which the frame is selected and the bus at rest. -/
theorem beginByte_inv (hx : s.xs = .setup ∨ s.xs = .gap) {i : BitVec 3} (hi : i.toNat ≤ 6) (k : Nat) :
    (beginByte { s with xs := .shift, bidx := i } k).Inv :=
  { h with
    xfer := by rcases hx with hx | hx <;> simpa [hx] using h.xfer
    select := by rcases hx with hx | hx <;> simpa [hx] using h.select
    rest := by simp
    clockHalf := fun _ => by
      have hs := (h.rest (by rcases hx with hx | hx <;> simp [hx])).1
      simpa using hs
    halfCount := sclkHalf_pred_lt h.legal
    byteIndex := hi
    gapIndex := by simp
    holdIndex := by simp }

/-- R103: the byte register is done with its byte; the gap or, after byte 6, the hold begins. -/
theorem endByte_inv (hx : s.xs = .shift) (hs : s.sclk = s.params.spiMode.cpol) : (endByte s).Inv := by
  obtain ⟨-, -, hhold, hgap, -⟩ := timer_loads_fit h.legal
  rcases endByte_cases s with ⟨hb, e⟩ | ⟨hb, e⟩ <;> rw [e]
  · exact { h with
      xfer := by simpa [hx] using h.xfer
      select := by simpa [hx] using h.select
      rest := fun _ => ⟨hs, rfl⟩
      clockHalf := by simp
      gapIndex := fun _ => hb
      holdIndex := by simp
      timer := hgap }
  · exact { h with
      xfer := by simpa [hx] using h.xfer
      select := by simpa [hx] using h.select
      rest := fun _ => ⟨hs, rfl⟩
      clockHalf := by simp
      gapIndex := by simp
      holdIndex := fun _ => le_antisymm h.byteIndex hb
      timer := hhold }

/-- R104: the half of a bit and the level of `sclk` change together, whatever is sampled or driven. -/
theorem bitEdge_inv (hx : s.xs = .shift) {half level : Bool} (hl : level = (half ^^ s.params.spiMode.cpol))
    (n : BitVec 3) (rx : Byte) (m : Bool) :
    ({ s with
      bitn := n, ph := half, sclk := level, hcnt := s.params.sclkHalf - 1, rxb := rx, mosi := m } : State).Inv :=
  { h with
    rest := fun hn => absurd hx hn
    clockHalf := fun _ => hl
    halfCount := sclkHalf_pred_lt h.legal }

theorem leadingEdge_inv (hx : s.xs = .shift) : (leadingEdge s).Inv := by
  rcases leadingEdge_cases s with ⟨-, e⟩ | ⟨-, e⟩ <;> rw [e]
  · exact bitEdge_inv h hx (by simp) _ _ _
  · exact bitEdge_inv h hx (by simp) _ _ _

theorem trailingEdge_inv (hx : s.xs = .shift) : (trailingEdge s).Inv := by
  rcases trailingEdge_cases s with ⟨-, e⟩ | ⟨-, e⟩ <;> rw [e]
  · exact bitEdge_inv h hx (by simp) _ _ _
  · exact endByte_inv (bitEdge_inv h hx (by simp) _ _ _) hx rfl

theorem shiftEdge_inv (hx : s.xs = .shift) : (shiftEdge s).Inv := by
  rcases shiftEdge_cases s with ⟨-, e⟩ | ⟨-, -, e⟩ | ⟨-, -, e⟩ <;> rw [e]
  · exact { h with halfCount := (Nat.sub_le _ _).trans_lt h.halfCount }
  · exact leadingEdge_inv h hx
  · exact trailingEdge_inv h hx

/-- R106: after a frame the bus is at rest, and the control FSM is outside `C_XFER`; a FRAME never waits. -/
theorem deselect_inv (hx : s.xs = .hold) {c : Ctl} (hc : c ≠ .xfer) (hw : c = .pwait → s.kind = .poll) :
    ({ s with xs := .off, csN := true, ctl := c } : State).Inv :=
  { h with
    xfer := by simp [hc]
    select := by simp
    rest := fun _ => h.rest (by simp [hx])
    clockHalf := by simp
    gapIndex := by simp
    holdIndex := by simp
    budget := fun hk => ⟨(h.budget hk).1, fun _ => (att_lt_of_frame h hk (by simp [hx]) :)⟩
    frameKind := fun hk => frameKind_of_ne_pwait h (fun e => by simp [hw e] at hk) hk }

/-- R169: below its budget, the attempt counter rises by exactly 1. -/
theorem nextAttempt_eq (hlt : s.att < s.nmax) : nextAttempt s = s.att + 1 :=
  Nat.mod_eq_of_lt (lt_of_le_of_lt hlt h.counts.1)

/-- R171: the frame's end answers the command or, below the budget, begins the wait before the next attempt. -/
theorem frameEnd_inv (hx : s.xs = .hold) :
    (frameEnd { s with xs := .off, csN := true } s.rxacc).Inv := by
  obtain ⟨hn, ha, hrsp⟩ := h.counts
  obtain ⟨-, -, -, -, hpoll⟩ := timer_loads_fit h.legal
  rcases kind_frame_or_poll s.kind with hk | hk
  · rw [frameEnd_frame (s := { s with xs := .off, csN := true }) hk]
    exact { deselect_inv h hx (c := .resp) (by decide) (by simp) with
      counts := ⟨hn, ha, Nat.two_pow_pos _⟩ }
  · have hlt : s.att < s.nmax := att_lt_of_frame h hk (by simp [hx])
    have hnext : nextAttempt { s with xs := .off, csN := true } = s.att + 1 :=
      (nextAttempt_eq h hlt :)
    rw [frameEnd_poll (s := { s with xs := .off, csN := true }) hk]
    rcases pollAttemptEnd_cases { s with xs := .off, csN := true } s.rxacc with ⟨-, e⟩ | ⟨-, hne, e⟩ <;>
      rw [e, hnext]
    · exact { deselect_inv h hx (c := .resp) (by decide) (by simp) with
        decoded := rfl
        counts := ⟨hn, lt_of_le_of_lt hlt hn, lt_of_le_of_lt hlt hn⟩
        budget := fun _ => ⟨hlt, by simp⟩
        frameKind := by simp [hk] }
    · rw [hnext] at hne
      exact { deselect_inv h hx (c := .pwait) (by decide) fun _ => hk with
        decoded := rfl
        timer := hpoll
        counts := ⟨hn, lt_of_le_of_lt hlt hn, hrsp⟩
        budget := fun _ => ⟨hlt, fun _ => lt_of_le_of_ne hlt hne⟩
        frameKind := by simp [hk] }

theorem transportEdge_inv : (transportEdge s).Inv := by
  cases hx : s.xs <;> simp only [transportEdge, hx]
  case off => exact h
  case pre => exact pre_inv h hx
  case setup => exact timed_inv h (beginByte_inv h (.inl hx) (by simp) 0)
  case shift => exact shiftEdge_inv h hx
  case gap =>
    have hi : (s.bidx + 1).toNat ≤ 6 := by
      have := h.gapIndex hx
      bv_omega
    exact timed_inv h (beginByte_inv h (.inr hx) hi _)
  case hold => exact timed_inv h (frameEnd_inv h hx)

theorem fsmEdge_inv : (fsmEdge s (portAction s)).Inv := by
  rcases fsmEdge_cases s (portAction s) with ⟨hc, e⟩ | ⟨-, e⟩ | ⟨hc, e⟩ | ⟨hc, e⟩ <;> rw [e]
  · exact portAction_inv h hc
  · exact transportEdge_inv h
  · exact pwait_inv h hc
  · exact setCtl_inv h (by simp [hc]) (by decide) (by decide)

theorem edge_inv : (edge s (portAction s)).Inv := by
  cases hr : (pinsAt s 0).rst
  · rw [edge_of_no_rst hr]
    have hp : (fsmEdge s (portAction s)).params = s.params := (fsmEdge_outside s).1
    exact advance_inv (fsmEdge_inv h) (by rw [nextSync_length h, hp])
  · rw [edge_of_rst hr]
    exact { resetOf_inv h.legal with }

end

/-- Settles O40: a step is one edge, and every operation of an edge keeps the invariant. -/
theorem stepKeepsTheInvariant : Obligations.StepKeepsTheInvariant := by
  intro s t h hs
  obtain ⟨-, rfl⟩ := step_next_iff.1 hs
  exact edge_inv h

/-- Settles O39: the reference configuration is legal, and the reset state of every legal one meets the invariant. -/
theorem resetStateMeetsTheInvariant : Obligations.ResetStateMeetsTheInvariant :=
  ⟨rfl, resetOf_inv (by decide), fun _ => resetOf_inv⟩

/-! ## What an edge leaves of a command's results -/

/-- The registers that only the request port and the end of a frame write: the control FSM, the attempt counter, the
response and the status. -/
structure SameProgress (s t : State) : Prop where
  ctl : t.ctl = s.ctl
  att : t.att = s.att
  rsp : t.rsp = s.rsp
  stRaw : t.stRaw = s.stRaw
  st : t.st = s.st

theorem SameProgress.refl (s : State) : SameProgress s s := ⟨rfl, rfl, rfl, rfl, rfl⟩

theorem endByte_sameProgress (s : State) : SameProgress s (endByte s) := by
  rcases endByte_cases s with ⟨-, e⟩ | ⟨-, e⟩ <;> rw [e] <;> constructor <;> rfl

theorem shiftEdge_sameProgress (s : State) : SameProgress s (shiftEdge s) := by
  rcases shiftEdge_cases s with ⟨-, e⟩ | ⟨-, -, e⟩ | ⟨-, -, e⟩ <;> rw [e]
  · constructor <;> rfl
  · rcases leadingEdge_cases s with ⟨-, e'⟩ | ⟨-, e'⟩ <;> rw [e'] <;> constructor <;> rfl
  · rcases trailingEdge_cases s with ⟨-, e'⟩ | ⟨-, e'⟩ <;> rw [e']
    · constructor <;> rfl
    · exact { endByte_sameProgress _ with }

theorem timed_sameProgress {s d : State} (h : SameProgress s d) : SameProgress s (timed s d) := by
  rcases timed_cases s d with ⟨-, e⟩ | ⟨-, e⟩ <;> rw [e]
  · exact h
  · constructor <;> rfl

/-- An edge of the transport FSM either ends the frame or leaves the command's progress as it is (R103). -/
theorem transportEdge_cases (s : State) :
    SameProgress s (transportEdge s) ∨
    (s.xs = .hold ∧ s.tcnt = 0 ∧
      transportEdge s = frameEnd { s with xs := .off, csN := true } s.rxacc) := by
  cases hx : s.xs <;> simp only [transportEdge, hx]
  case off => exact .inl (.refl s)
  case pre => exact .inl (timed_sameProgress (by constructor <;> rfl))
  case setup => exact .inl (timed_sameProgress (by constructor <;> rfl))
  case shift => exact .inl (shiftEdge_sameProgress s)
  case gap => exact .inl (timed_sameProgress (by constructor <;> rfl))
  case hold =>
    by_cases h0 : s.tcnt = 0
    · exact .inr ⟨trivial, h0, timed_zero h0⟩
    · refine .inl ?_
      rw [timed_pos h0]
      constructor <;> rfl

/-- The end of a frame that does not end an attempt of a POLL is the end of a FRAME. -/
theorem frameEnd_of_not_attemptEnds {s : State} (hc : s.ctl = .xfer) (hx : s.xs = .hold) (h0 : s.tcnt = 0)
    (hn : ¬ AttemptEnds s) :
    frameEnd { s with xs := .off, csN := true } s.rxacc =
      respond { s with xs := .off, csN := true } s.rxacc false 0 false := by
  rcases kind_frame_or_poll s.kind with hk | hk
  · exact frameEnd_frame (s := { s with xs := .off, csN := true }) hk _
  · exact absurd ⟨hc, hx, h0, hk⟩ hn

/-- R21, R26: an edge of the transport FSM that does not end an attempt writes neither the status nor the counter. -/
theorem transportEdge_of_not_attemptEnds {s : State} (hc : s.ctl = .xfer) (hn : ¬ AttemptEnds s) :
    (transportEdge s).stRaw = s.stRaw ∧ (transportEdge s).st = s.st ∧ (transportEdge s).att = s.att := by
  rcases transportEdge_cases s with h | ⟨hx, h0, e⟩
  · exact ⟨h.stRaw, h.st, h.att⟩
  · rw [e, frameEnd_of_not_attemptEnds hc hx h0 hn]
    exact ⟨rfl, rfl, rfl⟩

theorem timed_startFrame_sameCommand (s : State) : SameCommand s (timed s (startFrame s)) := by
  rcases timed_cases s (startFrame s) with ⟨-, e⟩ | ⟨-, e⟩ <;> rw [e] <;> constructor <;> rfl

/-- The start of the next attempt writes no result of the command. -/
theorem timed_startFrame_results (s : State) :
    (timed s (startFrame s)).att = s.att ∧ (timed s (startFrame s)).rsp = s.rsp ∧
      (timed s (startFrame s)).stRaw = s.stRaw ∧ (timed s (startFrame s)).st = s.st := by
  rcases timed_cases s (startFrame s) with ⟨-, e⟩ | ⟨-, e⟩ <;> rw [e] <;> exact ⟨rfl, rfl, rfl, rfl⟩

theorem portAction_status (s : State) :
    (portAction s s).stRaw = s.stRaw ∧ (portAction s s).st = s.st := by
  rcases portAction_cases s s with e | e | ⟨f, e⟩ | ⟨n, -, -, e⟩ <;> rw [e] <;> exact ⟨rfl, rfl⟩

theorem fsmEdge_status {s : State} (hn : ¬ AttemptEnds s) :
    (fsmEdge s (portAction s)).stRaw = s.stRaw ∧ (fsmEdge s (portAction s)).st = s.st := by
  rcases fsmEdge_cases s (portAction s) with ⟨-, e⟩ | ⟨hc, e⟩ | ⟨-, e⟩ | ⟨-, e⟩ <;> rw [e]
  · exact portAction_status s
  · obtain ⟨hraw, hst, -⟩ := transportEdge_of_not_attemptEnds hc hn
    exact ⟨hraw, hst⟩
  · obtain ⟨-, -, hraw, hst⟩ := timed_startFrame_results s
    exact ⟨hraw, hst⟩
  · exact ⟨rfl, rfl⟩

/-- Settles O33: of the four states of the control FSM only `C_XFER` can write the status, where an attempt ends. -/
theorem onlyAttemptsAndResetWriteStatus : Obligations.OnlyAttemptsAndResetWriteStatus := by
  intro s t h hr hn
  rw [step_of_no_rst h hr]
  exact fsmEdge_status hn

theorem fsmEdge_busy_sameCommand {s : State} (hb : s.ctl ≠ .idle) (a : State → State) :
    SameCommand s (fsmEdge s a) := by
  rcases fsmEdge_cases s a with ⟨hc, -⟩ | ⟨-, e⟩ | ⟨-, e⟩ | ⟨-, e⟩
  · exact absurd hc hb
  · rw [e]; exact transportEdge_sameCommand s
  · rw [e]; exact timed_startFrame_sameCommand s
  · rw [e]; constructor <;> rfl

theorem fsmEdge_busy_att {s : State} (hb : s.ctl ≠ .idle) (hn : ¬ AttemptEnds s) (a : State → State) :
    (fsmEdge s a).att = s.att := by
  rcases fsmEdge_cases s a with ⟨hc, -⟩ | ⟨hc, e⟩ | ⟨-, e⟩ | ⟨-, e⟩
  · exact absurd hc hb
  · rw [e]; exact (transportEdge_of_not_attemptEnds hc hn).2.2
  · rw [e]; exact (timed_startFrame_results s).1
  · rw [e]

/-- Settles O35: only the accept edge loads the command registers, and it belongs to `C_IDLE`. -/
theorem commandRegistersHeld : Obligations.CommandRegistersHeld := by
  intro s t h hr hb
  rw [step_of_no_rst h hr]
  have same := fsmEdge_busy_sameCommand hb (portAction s)
  exact ⟨same.kind, same.frm, same.nmax, fun hn => fsmEdge_busy_att hb hn _⟩

/-! ## The response -/

theorem rspValid_iff (s : State) : rspValid s = true ↔ s.ctl = .resp ∧ (pinsAt s 0).rst = false := by
  simp [rspValid]

theorem fsmEdge_resp {s : State} (hc : s.ctl = .resp) (a : State → State) :
    fsmEdge s a = { s with ctl := .idle } := by
  simp [fsmEdge, hc]

/-- R29: the end of a frame writes the response registers only where it answers the command. -/
theorem frameEnd_rsp (s : State) (w : Word32) (h : (frameEnd s w).ctl ≠ .resp) : (frameEnd s w).rsp = s.rsp := by
  rcases kind_frame_or_poll s.kind with hk | hk
  · rw [frameEnd_frame hk] at h
    exact absurd rfl h
  · rw [frameEnd_poll hk] at h ⊢
    rcases pollAttemptEnd_cases s w with ⟨-, e⟩ | ⟨-, -, e⟩ <;> rw [e] at h ⊢
    exact absurd rfl h

theorem transportEdge_rsp (s : State) (h : (transportEdge s).ctl ≠ .resp) : (transportEdge s).rsp = s.rsp := by
  rcases transportEdge_cases s with same | ⟨-, -, e⟩
  · exact same.rsp
  · rw [e] at h ⊢
    exact frameEnd_rsp _ _ h

theorem portAction_rsp (s : State) (h : (portAction s s).ctl ≠ .resp) : (portAction s s).rsp = s.rsp := by
  rcases portAction_cases s s with e | e | ⟨f, e⟩ | ⟨n, -, -, e⟩ <;> rw [e] at h ⊢
  · exact absurd rfl h
  · rfl
  · rfl

theorem fsmEdge_rsp (s : State) (h : (fsmEdge s (portAction s)).ctl ≠ .resp) :
    (fsmEdge s (portAction s)).rsp = s.rsp := by
  rcases fsmEdge_cases s (portAction s) with ⟨-, e⟩ | ⟨-, e⟩ | ⟨-, e⟩ | ⟨-, e⟩ <;> rw [e] at h ⊢
  · exact portAction_rsp s h
  · exact transportEdge_rsp s h
  · exact (timed_startFrame_results s).2.1

/-- Settles O34: every operation that writes the response registers goes to `C_RESP`, and `C_RESP` to `C_IDLE`. -/
theorem responseHeldUntilTheNext : Obligations.ResponseHeldUntilTheNext := by
  intro s t h hr
  rw [step_of_no_rst h hr]
  refine ⟨by simp [rspValid_iff, hr], fun hc => ?_, fsmEdge_rsp s⟩
  rw [fsmEdge_resp hc]
  rfl

/-! ## What a ready machine does with its request port -/

/-- Settles O17: with nothing offered, a ready machine's edge is the identity on its registers. -/
theorem idleCycleKeepsEveryRegister : Obligations.IdleCycleKeepsEveryRegister := by
  intro s h hv
  rw [step_of_no_request hv, clock_ready h]
  rfl

/-- Settles O18: the edge of a ready machine is `acceptFrame`. -/
theorem frameIsAccepted : Obligations.FrameIsAccepted := by
  intro s op a d h
  rw [exec_frame, clock_ready h]
  rfl

/-- Settles O19: a legal budget is not 0 and fits its field, so the edge of a ready machine loads it as it is. -/
theorem pollIsAccepted : Obligations.PollIsAccepted := by
  intro s n h h1 hn
  have hcount : countOperand s.params n = n := countOperand_of_lt hn
  rw [exec_poll, clock_ready h, acceptPoll_pos (by omega), hcount]
  rfl

/-! ## The request port of a machine that is not ready -/

/-- `s` with other levels on the input pins, from the present cycle on. -/
def State.withEnv (s : State) (e : List Pins) : State := { s with env := e }

theorem withPins_eq_withEnv (s : State) (p : Pins) : s.withPins p = s.withEnv (p :: s.env.tail) := rfl

section
variable {s : State} {e : List Pins}

theorem timed_withEnv (d : State) : timed (s.withEnv e) (d.withEnv e) = (timed s d).withEnv e :=
  (apply_ite (State.withEnv · e) (s.tcnt = 0) d { s with tcnt := s.tcnt - 1 }).symm

theorem endByte_withEnv : endByte (s.withEnv e) = (endByte s).withEnv e := by
  unfold endByte
  rw [apply_ite (State.withEnv · e)]
  rfl

theorem pollAttemptEnd_withEnv (w : Word32) : pollAttemptEnd (s.withEnv e) w = (pollAttemptEnd s w).withEnv e := by
  unfold pollAttemptEnd
  rw [apply_ite (State.withEnv · e)]
  rfl

theorem frameEnd_withEnv (w : Word32) : frameEnd (s.withEnv e) w = (frameEnd s w).withEnv e := by
  rcases kind_frame_or_poll s.kind with hk | hk
  · rw [frameEnd_frame hk, frameEnd_frame (s := s.withEnv e) hk]
    rfl
  · rw [frameEnd_poll hk, frameEnd_poll (s := s.withEnv e) hk, pollAttemptEnd_withEnv]

variable (hm : misoAt (s.withEnv e) 0 = misoAt s 0)
include hm

theorem misoSynced_withEnv : misoSynced (s.withEnv e) = misoSynced s := by
  unfold misoSynced
  rw [hm]
  rfl

theorem nextSync_withEnv : nextSync (s.withEnv e) = nextSync s := by
  unfold nextSync
  rw [hm]
  rfl

theorem sample_withEnv : sample (s.withEnv e) = (sample s).withEnv e := by
  unfold sample
  rw [misoSynced_withEnv hm]
  rfl

theorem leadingEdge_withEnv : leadingEdge (s.withEnv e) = (leadingEdge s).withEnv e := by
  unfold leadingEdge
  rw [apply_ite (State.withEnv · e)]
  refine if_congr Iff.rfl rfl ?_
  exact sample_withEnv (s := { s with ph := true, sclk := !s.params.spiMode.cpol, hcnt := s.params.sclkHalf - 1 }) hm

theorem trailingEdge_withEnv : trailingEdge (s.withEnv e) = (trailingEdge s).withEnv e := by
  have hrx : misoSynced (s.withEnv e) = misoSynced s := misoSynced_withEnv hm
  rcases trailingEdge_cases s with ⟨hb, h⟩ | ⟨hb, h⟩ <;>
    rcases trailingEdge_cases (s.withEnv e) with ⟨hb', h'⟩ | ⟨hb', h'⟩ <;> rw [h, h', hrx]
  · rfl
  · exact absurd hb (Nat.not_lt.2 hb')
  · exact absurd hb' (Nat.not_lt.2 hb)
  · exact endByte_withEnv (s := { s with
      ph := false, sclk := s.params.spiMode.cpol, hcnt := s.params.sclkHalf - 1
      rxb := if s.params.spiMode.cpha then shiftIn s.params.bitOrder s.rxb (misoSynced s) else s.rxb })

theorem shiftEdge_withEnv : shiftEdge (s.withEnv e) = (shiftEdge s).withEnv e := by
  have hcount : (s.withEnv e).hcnt = s.hcnt := rfl
  have hhalf : (s.withEnv e).ph = s.ph := rfl
  unfold shiftEdge
  rw [hcount, hhalf, trailingEdge_withEnv hm, leadingEdge_withEnv hm, apply_ite (State.withEnv · e),
    apply_ite (State.withEnv · e)]
  rfl

theorem transportEdge_withEnv : transportEdge (s.withEnv e) = (transportEdge s).withEnv e := by
  have hxs : (s.withEnv e).xs = s.xs := rfl
  cases hx : s.xs <;> simp only [transportEdge, hxs, hx]
  case pre => exact timed_withEnv { s with xs := .setup, csN := false, tcnt := s.params.tSetup - 1 }
  case setup => exact timed_withEnv (beginByte { s with xs := .shift, bidx := 0 } 0)
  case shift => exact shiftEdge_withEnv hm
  case gap => exact timed_withEnv (beginByte { s with xs := .shift, bidx := s.bidx + 1 } (s.bidx.toNat + 1))
  case hold =>
    rw [← timed_withEnv, ← frameEnd_withEnv]
    rfl

theorem fsmEdge_withEnv (hb : s.ctl ≠ .idle) (a b : State → State) :
    fsmEdge (s.withEnv e) a = (fsmEdge s b).withEnv e := by
  have hctl : (s.withEnv e).ctl = s.ctl := rfl
  cases hc : s.ctl <;> simp only [fsmEdge, hctl, hc]
  case idle => exact absurd hc hb
  case xfer => exact transportEdge_withEnv hm
  case pwait => exact timed_withEnv (startFrame s)
  case resp => rfl

theorem edge_withEnv (ht : e.tail = s.env.tail) (hrst : (pinsAt (s.withEnv e) 0).rst = (pinsAt s 0).rst)
    (hn : s.ctl ≠ .idle ∨ (pinsAt s 0).rst = true) (a b : State → State) :
    edge (s.withEnv e) a = edge s b := by
  cases hr : (pinsAt s 0).rst
  · have hb : s.ctl ≠ .idle := hn.resolve_right (by simp [hr])
    have henv : (fsmEdge s b).env = s.env := (fsmEdge_busy_sameCommand hb b).env
    rw [edge_of_no_rst hr, edge_of_no_rst (hrst.trans hr), fsmEdge_withEnv hm hb a b, nextSync_withEnv hm]
    simp only [advance, State.withEnv, ht, henv]
  · rw [edge_of_rst hr, edge_of_rst (hrst.trans hr)]
    simp only [advance, resetRegs, State.withEnv, ht]

/-- R31, R220: a machine that is busy or in reset sees of its pins only `rst` and `miso`. -/
theorem clock_withEnv (ht : e.tail = s.env.tail) (hrst : (pinsAt (s.withEnv e) 0).rst = (pinsAt s 0).rst)
    (hn : s.ctl ≠ .idle ∨ (pinsAt s 0).rst = true) (a b : State → State) :
    clock (s.withEnv e) a = clock s b := by
  unfold clock
  rw [edge_withEnv hm ht hrst hn a b]
  rfl

end

theorem reqReady_iff (s : State) : reqReady s = true ↔ s.ctl = .idle ∧ (pinsAt s 0).rst = false := by
  simp [reqReady]

/-- R31, R62: a machine that is not ready looks at no pin but `rst` and `miso`. -/
theorem step_withPins_of_not_ready {s : State} {p : Pins} (hn : reqReady s = false)
    (hr : p.rst = (pinsAt s 0).rst) (hm : p.miso = (pinsAt s 0).miso) : step (s.withPins p) = step s := by
  have hmiso : misoAt (s.withPins p) 0 = misoAt s 0 := by simp [misoAt, hm]
  have hrst : (pinsAt (s.withPins p) 0).rst = (pinsAt s 0).rst := by rw [pinsAt_withPins_zero, hr]
  have hbusy : s.ctl ≠ .idle ∨ (pinsAt s 0).rst = true := by
    by_contra hc
    have : reqReady s = true := (reqReady_iff s).2 (by simpa using hc)
    simp [this] at hn
  rw [step_eq_clock, step_eq_clock s, withPins_eq_withEnv]
  exact clock_withEnv hmiso rfl hrst hbusy _ _

/-- Settles O15: a ready machine runs the offered command, and any other sees of its pins only `rst` and `miso`. -/
theorem readyExactlyWhenIdle : Obligations.ReadyExactlyWhenIdle := fun s =>
  ⟨reqReady_iff s, rfl, fun _ _ hv hd => step_of_request hv hd, fun hn _ _ => step_withPins_of_not_ready hn rfl rfl⟩

/-! ## The reset state and the output ports -/

theorem resetOf_ports (p : Params) : reqReady (State.resetOf p) = true ∧ rspValid (State.resetOf p) = false :=
  ⟨rfl, rfl⟩

/-- Settles O12: the ports of the reset state, and its registers as `State.resetOf` gives them. -/
theorem resetStateHoldsTheTableValues : Obligations.ResetStateHoldsTheTableValues := by
  intro p
  obtain ⟨hready, hvalid⟩ := resetOf_ports p
  exact ⟨_, rfl, by simp [hready, hvalid, Response.zero, Status.zero]⟩

/-- Settles O49: every one of these ports is its register, or a slice of one. -/
theorem outputPortsShowTheRegisters : Obligations.OutputPortsShowTheRegisters := fun _ =>
  ⟨rfl, rfl, rfl, rfl, rfl, rfl, rfl, rfl, rfl, rfl, rfl⟩

end Sys2Proof.Machine

/-! # The request port and the bus around a command (spec/20_memory.md R59 to R62) -/

namespace Sys2Proof.Machine

/-! ## Runs, one step at a time -/

/-- A run of `k + 1` cycles is one step and a run of `k` cycles from where it leads. -/
theorem run_succ_next_iff {s u : State} {k : Nat} :
    run (k + 1) s = .next u ↔ ∃ t, step s = .next t ∧ run k t = .next u := by
  constructor
  · intro h
    cases hs : step s with
    | next t => exact ⟨t, rfl, run_succ_of_step hs k ▸ h⟩
    | fault r => cases r
    | refused r => simp [run, hs] at h
  · rintro ⟨t, hs, h⟩
    rw [run_succ_of_step hs, h]

/-! ## The response (R59, R60) -/

theorem transportEdge_ctl_ne_idle {s : State} (hb : s.ctl ≠ .idle) : (transportEdge s).ctl ≠ .idle := by
  rcases transportEdge_cases s with same | ⟨-, -, e⟩
  · rwa [same.ctl]
  · rw [e]
    obtain ⟨-, hc | ⟨hc, -⟩⟩ := frameEnd_phase { s with xs := .off, csN := true } s.rxacc <;> simp [hc]

theorem timed_startFrame_ctl_ne_idle {s : State} (hb : s.ctl ≠ .idle) : (timed s (startFrame s)).ctl ≠ .idle := by
  rcases timed_cases s (startFrame s) with ⟨-, e⟩ | ⟨-, e⟩ <;> rw [e]
  · simp
  · exact hb

/-- R24, R171: without reset, only `C_RESP` leads to `C_IDLE`. -/
theorem step_ctl_ne_idle {s t : State} (h : step s = .next t) (hr : (pinsAt s 0).rst = false)
    (hb : s.ctl ≠ .idle) (hresp : s.ctl ≠ .resp) : t.ctl ≠ .idle := by
  rw [step_of_no_rst h hr]
  change (fsmEdge s (portAction s)).ctl ≠ .idle
  rcases fsmEdge_cases s (portAction s) with ⟨hc, -⟩ | ⟨-, e⟩ | ⟨-, e⟩ | ⟨hc, -⟩
  · exact absurd hc hb
  · rw [e]; exact transportEdge_ctl_ne_idle hb
  · rw [e]; exact timed_startFrame_ctl_ne_idle hb
  · exact absurd hc hresp

/-- Settles O46, by induction on the number of cycles: the present cycle is the response, or the next is busy again. -/
theorem everyCommandIsAnsweredBeforeTheNext : Obligations.EveryCommandIsAnsweredBeforeTheNext := by
  intro s u n hb hnr hrun hu
  induction n generalizing s with
  | zero =>
    obtain rfl : s = u := by simpa using hrun
    exact absurd hu hb
  | succ n ih =>
    have hr : (pinsAt s 0).rst = false := hnr 0 n.succ_pos
    by_cases hresp : s.ctl = .resp
    · exact ⟨0, s, n.succ_pos, rfl, (rspValid_iff s).2 ⟨hresp, hr⟩⟩
    · obtain ⟨t, hs, ht⟩ := run_succ_next_iff.1 hrun
      obtain ⟨i, x, hi, hx, hv⟩ := ih t (step_ctl_ne_idle hs hr hb hresp) (noReset_step hs hnr) ht
      exact ⟨i + 1, x, Nat.succ_lt_succ hi, run_succ_next_iff.2 ⟨t, hs, hx⟩, hv⟩

/-- Settles O47: `C_RESP` is not `C_XFER`, so the transport is off, where the invariant has the bus at rest. -/
theorem responseComesAfterTheBusActivity : Obligations.ResponseComesAfterTheBusActivity := by
  intro s h hv
  obtain ⟨hc, -⟩ := (rspValid_iff s).1 hv
  have hx : s.xs = .off := xs_off_of_ctl h (by simp [hc])
  exact ⟨hx, h.select.2 (.inl hx), h.rest (by simp [hx])⟩

/-! ## Requests offered while busy (R62) -/

/-- In the cycle `i` cycles from now the script `e` puts on the pins what the script of `s` does, or changes the request
alone, and the machine is busy. -/
def SameUnlessBusy (s : State) (e : List Pins) (i : Nat) : Prop :=
  pinsAt (s.withEnv e) i = pinsAt s i ∨
  ((∃ v r, pinsAt (s.withEnv e) i = { pinsAt s i with reqValid := v, req := r }) ∧
    ∀ u, run i s = .next u → u.ctl ≠ .idle)

section
variable {s t : State} {e : List Pins}

theorem SameUnlessBusy.rst {i : Nat} (h : SameUnlessBusy s e i) : (pinsAt (s.withEnv e) i).rst = (pinsAt s i).rst := by
  rcases h with h | ⟨⟨v, r, h⟩, -⟩ <;> rw [h]

theorem SameUnlessBusy.miso {i : Nat} (h : SameUnlessBusy s e i) : misoAt (s.withEnv e) i = misoAt s i := by
  unfold misoAt
  rcases h with h | ⟨⟨v, r, h⟩, -⟩ <;> rw [h] <;> rfl

theorem SameUnlessBusy.pins_of_idle (h : SameUnlessBusy s e 0) (hc : s.ctl = .idle) :
    pinsAt (s.withEnv e) 0 = pinsAt s 0 :=
  h.resolve_right fun hbusy => hbusy.2 s rfl hc

/-- What holds of a later cycle, seen from one step on. -/
theorem SameUnlessBusy.step {i : Nat} (h : SameUnlessBusy s e (i + 1)) (hs : step s = .next t)
    (hs' : step (s.withEnv e) = .next (t.withEnv e.tail)) : SameUnlessBusy t e.tail i := by
  unfold SameUnlessBusy
  rw [step_pinsAt hs, step_pinsAt hs', ← run_succ_of_step hs]
  exact h

theorem acceptPoll_withEnv (n : Nat) : acceptPoll n (s.withEnv e) = (acceptPoll n s).withEnv e := by
  unfold acceptPoll
  rw [apply_ite (State.withEnv · e)]
  rfl

/-- Of the pins, the action of the request port looks at the present request only, and it writes none. -/
theorem portAction_withEnv (h : pinsAt (s.withEnv e) 0 = pinsAt s 0) :
    portAction (s.withEnv e) (s.withEnv e) = (portAction s s).withEnv e := by
  have hoff : offered (s.withEnv e) = offered s := by
    unfold offered
    rw [h]
    rfl
  unfold portAction
  rw [hoff]
  rcases offered s with _ | (_ | (_ | n))
  case some.ok.poll => exact acceptPoll_withEnv n
  all_goals rfl

theorem fsmEdge_portAction_withEnv (h : SameUnlessBusy s e 0) :
    fsmEdge (s.withEnv e) (portAction (s.withEnv e)) = (fsmEdge s (portAction s)).withEnv e := by
  by_cases hc : s.ctl = .idle
  · rw [fsmEdge_idle hc, fsmEdge_idle (s := s.withEnv e) hc, portAction_withEnv (h.pins_of_idle hc)]
  · exact fsmEdge_withEnv h.miso hc _ _

/-- R11: an edge reads the pins of the present cycle only; the later ones come up as the script has them. -/
theorem edge_portAction_withEnv (h : SameUnlessBusy s e 0) :
    edge (s.withEnv e) (portAction (s.withEnv e)) = (edge s (portAction s)).withEnv e.tail := by
  cases hr : (pinsAt s 0).rst
  · rw [edge_of_no_rst hr, edge_of_no_rst (h.rst.trans hr), fsmEdge_portAction_withEnv h, nextSync_withEnv h.miso]
    rfl
  · rw [edge_of_rst hr, edge_of_rst (h.rst.trans hr)]
    rfl

theorem step_withEnv (h : SameUnlessBusy s e 0) (hs : step s = .next t) :
    step (s.withEnv e) = .next (t.withEnv e.tail) := by
  obtain ⟨hl, rfl⟩ := step_next_iff.1 hs
  exact step_next_iff.2 ⟨hl, (edge_portAction_withEnv h).symm⟩

theorem run_withEnv {u : State} {k : Nat} (h : ∀ i, i < k → SameUnlessBusy s e i) (hrun : run k s = .next u) :
    run k (s.withEnv e) = .next (u.withEnv (e.drop k)) := by
  induction k generalizing s e with
  | zero =>
    obtain rfl : s = u := by simpa using hrun
    rfl
  | succ k ih =>
    obtain ⟨t, hs, ht⟩ := run_succ_next_iff.1 hrun
    have hs' : step (s.withEnv e) = .next (t.withEnv e.tail) := step_withEnv (h 0 k.succ_pos) hs
    have later : ∀ i, i < k → SameUnlessBusy t e.tail i := fun i hi => (h (i + 1) (Nat.succ_lt_succ hi)).step hs hs'
    rw [run_succ_of_step hs', ih later ht, List.drop_tail]

end

/-- Settles O36: in an idle cycle both machines see the same pins, and a busy machine does not look at the request. -/
theorem busyRequestsHaveNoEffect : Obligations.BusyRequestsHaveNoEffect :=
  fun _ _ _ h _ hrun => run_withEnv h hrun

end Sys2Proof.Machine

/-! # The encodings (spec/30_encoding.md): the request bundle, the wire frame, the response and the status layout -/

namespace Sys2Proof

/-! ## The request bundle (R70 to R73) -/

/-- The two fields above the 56 bits of the wire frame, as one number. -/
theorem bundle_eq (cntW cmd count : Nat) (w : WireFrame) :
    bundle cntW cmd count w = 2 ^ 56 * (2 ^ cntW * (cmd % 4) + count % 2 ^ cntW) + w.toNat := by
  unfold bundle
  rw [Nat.pow_add]
  ring

theorem bundle_div (cntW cmd count : Nat) (w : WireFrame) :
    bundle cntW cmd count w / 2 ^ 56 = 2 ^ cntW * (cmd % 4) + count % 2 ^ cntW := by
  rw [bundle_eq, Nat.mul_add_div (by decide), Nat.div_eq_of_lt w.isLt, Nat.add_zero]

@[simp] theorem cmdField_bundle (cntW cmd count : Nat) (w : WireFrame) :
    cmdField cntW (bundle cntW cmd count w) = cmd % 4 := by
  have hcount : count % 2 ^ cntW < 2 ^ cntW := Nat.mod_lt _ (Nat.two_pow_pos _)
  rw [cmdField, Nat.pow_add, ← Nat.div_div_eq_div_mul, bundle_div, Nat.mul_add_div (Nat.two_pow_pos _),
    Nat.div_eq_of_lt hcount, Nat.add_zero, Nat.mod_mod]

@[simp] theorem countField_bundle (cntW cmd count : Nat) (w : WireFrame) :
    countField cntW (bundle cntW cmd count w) = count % 2 ^ cntW := by
  rw [countField, bundle_div, Nat.mul_add_mod, Nat.mod_mod]

@[simp] theorem frameField_bundle (cntW cmd count : Nat) (w : WireFrame) :
    frameField (bundle cntW cmd count w) = w := by
  apply BitVec.eq_of_toNat_eq
  rw [frameField, BitVec.toNat_ofNat, bundle_eq, Nat.mul_add_mod, Nat.mod_eq_of_lt w.isLt]

/-! ## The decoder, one equation for each code (R71, R72) -/

theorem decode_of_cmd_zero {cntW req : Nat} (h : cmdField cntW req = 0) :
    decode cntW req =
      .ok (.frame (opcodeOf (frameField req)) (addressOf (frameField req)) (dataOf (frameField req))) := by
  simp [decode, h]

theorem decode_of_cmd_one {cntW req : Nat} (h : cmdField cntW req = 1) :
    decode cntW req = .ok (.poll (countField cntW req)) := by
  simp [decode, h]

theorem decode_of_cmd_reserved {cntW req : Nat} (h : 2 ≤ cmdField cntW req) :
    decode cntW req = .error (.reservedCommand (cmdField cntW req)) := by
  unfold decode
  split
  · omega
  · omega
  · rfl

theorem decode_bundle_frame (cntW count : Nat) (w : WireFrame) :
    decode cntW (bundle cntW 0 count w) = .ok (.frame (opcodeOf w) (addressOf w) (dataOf w)) := by
  rw [decode_of_cmd_zero (by simp), frameField_bundle]

theorem decode_bundle_poll {cntW count : Nat} (h : count < 2 ^ cntW) (w : WireFrame) :
    decode cntW (bundle cntW 1 count w) = .ok (.poll count) := by
  rw [decode_of_cmd_one (by simp), countField_bundle, Nat.mod_eq_of_lt h]

theorem decode_bundle_reserved (cntW : Nat) {cmd : Nat} (hlow : 2 ≤ cmd) (hhigh : cmd < 4) (count : Nat)
    (w : WireFrame) : decode cntW (bundle cntW cmd count w) = .error (.reservedCommand cmd) := by
  have hcmd : cmdField cntW (bundle cntW cmd count w) = cmd := by
    rw [cmdField_bundle, Nat.mod_eq_of_lt hhigh]
  rw [decode_of_cmd_reserved (by rwa [hcmd]), hcmd]

/-! ## The wire frame (R74) -/

@[simp] theorem opcodeOf_wireFrame (op : Byte) (a : Addr) (d : Word32) : opcodeOf (wireFrame op a d) = op := by
  rw [opcodeOf, wireFrame, BitVec.extractLsb'_append_eq_of_le (by decide)]
  exact BitVec.extractLsb'_append_eq_left

@[simp] theorem addressOf_wireFrame (op : Byte) (a : Addr) (d : Word32) : addressOf (wireFrame op a d) = a := by
  rw [addressOf, wireFrame, BitVec.extractLsb'_append_eq_of_le (le_refl 32), BitVec.extractLsb'_append_eq_right]

@[simp] theorem dataOf_wireFrame (op : Byte) (a : Addr) (d : Word32) : dataOf (wireFrame op a d) = d :=
  BitVec.extractLsb'_append_eq_right

/-- R70: the three fields are the whole frame. -/
@[simp] theorem wireFrame_fields (w : WireFrame) : wireFrame (opcodeOf w) (addressOf w) (dataOf w) = w := by
  have hhead : opcodeOf w ++ addressOf w = w.extractLsb' 32 24 :=
    BitVec.extractLsb'_append_extractLsb'_eq_extractLsb' rfl
  rw [wireFrame, hhead]
  exact BitVec.extractLsb'_append_extractLsb'

/-- Settles O1: the bundle of a command has the command's code and operands in its fields. -/
theorem decodeOfEncodeGivesCommand : Obligations.DecodeOfEncodeGivesCommand := by
  intro cntW i hfits
  cases i with
  | frame op a d => rw [encode, decode_bundle_frame, opcodeOf_wireFrame, addressOf_wireFrame, dataOf_wireFrame]
  | poll n => exact decode_bundle_poll (by simpa [Instr.fits] using hfits) 0

/-- Settles O2, one clause for each code. -/
theorem decoderReadsOnlyUsedFields : Obligations.DecoderReadsOnlyUsedFields := fun cntW n w hn =>
  ⟨decode_bundle_frame cntW n w, decode_bundle_poll hn w,
    decode_bundle_reserved cntW (by decide) (by decide) n w, decode_bundle_reserved cntW (by decide) (by decide) n w⟩

/-- Settles O6: closed words, evaluated. -/
theorem writtenOutRequestsDecode : Obligations.WrittenOutRequestsDecode :=
  ⟨by decide, by decide, by decide, by decide⟩

namespace Machine

/-- A piece of a field is a piece of the word. -/
theorem extractLsb'_of_field {n start width i len : Nat} (w : BitVec n) (h : i + len ≤ width) :
    (w.extractLsb' start width).extractLsb' i len = w.extractLsb' (start + i) len := by
  ext b hb
  have hwidth : i + b < width := by omega
  simp [hwidth, Nat.add_assoc]

/-- R74: byte 0 is the opcode, bytes 1 and 2 the address, bytes 3 to 6 the data, most significant byte first. -/
theorem frameByte_eq_byte_of_field (w : WireFrame) :
    frameByte w 0 = opcodeOf w ∧
    frameByte w 1 = (addressOf w).extractLsb' 8 8 ∧ frameByte w 2 = (addressOf w).extractLsb' 0 8 ∧
    frameByte w 3 = (dataOf w).extractLsb' 24 8 ∧ frameByte w 4 = (dataOf w).extractLsb' 16 8 ∧
    frameByte w 5 = (dataOf w).extractLsb' 8 8 ∧ frameByte w 6 = (dataOf w).extractLsb' 0 8 := by
  have haddr : ∀ i, i + 8 ≤ 16 → (addressOf w).extractLsb' i 8 = w.extractLsb' (32 + i) 8 := fun _ hi =>
    extractLsb'_of_field w hi
  have hdata : ∀ i, i + 8 ≤ 32 → (dataOf w).extractLsb' i 8 = w.extractLsb' (0 + i) 8 := fun _ hi =>
    extractLsb'_of_field w hi
  exact ⟨rfl, (haddr 8 (by decide)).symm, (haddr 0 (by decide)).symm, (hdata 24 (by decide)).symm,
    (hdata 16 (by decide)).symm, (hdata 8 (by decide)).symm, (hdata 0 (by decide)).symm⟩

/-- R104: most significant first, bit `j` in transfer order is bit `7 - j` of its byte. -/
theorem txBit_msbFirst (w : WireFrame) {k j : Nat} (hk : k < 7) (hj : j < 8) :
    txBit .msbFirst w k j = (frameByte w k).getLsbD (7 - j) := by
  have hbit : 48 - 8 * k + (7 - j) = 55 - 8 * k - j := by omega
  simp [txBit, frameByte, hbit]
  omega

/-- R104: least significant first, bit `j` in transfer order is bit `j` of its byte. -/
theorem txBit_lsbFirst (w : WireFrame) (k : Nat) {j : Nat} (hj : j < 8) :
    txBit .lsbFirst w k j = (frameByte w k).getLsbD j := by
  simp [txBit, frameByte, hj]

/-- Settles O3: the fields of a frame, the bytes of its fields, and the bits of a byte. -/
theorem wireFrameIsSevenBytes : Obligations.WireFrameIsSevenBytes := by
  intro op a d w
  obtain ⟨h0, h1, h2, h3, h4, h5, h6⟩ := frameByte_eq_byte_of_field (wireFrame op a d)
  simp only [opcodeOf_wireFrame, addressOf_wireFrame, dataOf_wireFrame] at h0 h1 h2 h3 h4 h5 h6
  exact ⟨h0, h1, h2, h3, h4, h5, h6, wireFrame_fields w,
    fun k _ hk hj => ⟨txBit_msbFirst w hk hj, txBit_lsbFirst w k hj⟩⟩

/-! ## The response (R75, R103) -/

/-- R103: the newest byte is at the low end, above it what was there before. -/
theorem extractLsb'_accumulate (acc : Word32) (b : Byte) {n : Nat} (hn : n ≤ 24) :
    (accumulate acc b).extractLsb' 0 (n + 8) = acc.extractLsb' 0 n ++ b := by
  ext i hi
  rw [accumulate, BitVec.getElem_extractLsb', BitVec.getLsbD_append, BitVec.getElem_append]
  by_cases hb : i < 8
  · simp [hb]
  · simp [hb]
    omega

/-- R103: whatever the accumulator held, four bytes push it out. -/
theorem accumulate_four (acc : Word32) (r3 r4 r5 r6 : Byte) :
    accumulate (accumulate (accumulate (accumulate acc r3) r4) r5) r6 = response r3 r4 r5 r6 := by
  have h1 : (accumulate acc r3).extractLsb' 0 8 = r3 := BitVec.extractLsb'_append_eq_right
  have h2 : (accumulate (accumulate acc r3) r4).extractLsb' 0 16 = r3 ++ r4 := by
    rw [extractLsb'_accumulate (n := 8) _ _ (by decide), h1]
  have h3 : (accumulate (accumulate (accumulate acc r3) r4) r5).extractLsb' 0 24 = r3 ++ r4 ++ r5 := by
    rw [extractLsb'_accumulate (n := 16) _ _ (by decide), h2]
  rw [accumulate, h3, response]

/-- R75: the first of the four bytes is the most significant. -/
theorem response_bytes (r3 r4 r5 r6 : Byte) :
    (response r3 r4 r5 r6).extractLsb' 24 8 = r3 ∧ (response r3 r4 r5 r6).extractLsb' 16 8 = r4 ∧
    (response r3 r4 r5 r6).extractLsb' 8 8 = r5 ∧ (response r3 r4 r5 r6).extractLsb' 0 8 = r6 := by
  refine ⟨?_, ?_, ?_, BitVec.extractLsb'_append_eq_right⟩ <;>
    rw [response, BitVec.extractLsb'_append_eq_of_le (by decide)]
  · rw [BitVec.extractLsb'_append_eq_of_le (by decide)]
    exact BitVec.extractLsb'_append_eq_left
  · rw [BitVec.extractLsb'_append_eq_of_le (by decide)]
    exact BitVec.extractLsb'_append_eq_right
  · exact BitVec.extractLsb'_append_eq_right

/-- Settles O4. -/
theorem accumulatorGivesResponse : Obligations.AccumulatorGivesResponse := fun acc r3 r4 r5 r6 =>
  ⟨accumulate_four acc r3 r4 r5 r6, response_bytes r3 r4 r5 r6⟩

/-! ## The status layout (R79, R146) -/

/-- Bit `i` lies in one of the fields, each given as (lowest bit, width). -/
def inFields (fs : List (Nat × Nat)) (i : Nat) : Bool := fs.any fun f => f.1 ≤ i && i < f.1 + f.2

theorem assignedBit_eq_inFields (p : Params) (i : Nat) : assignedBit p i = inFields p.statusFields i := rfl

theorem inFields_cons (f : Nat × Nat) (fs : List (Nat × Nat)) (i : Nat) :
    inFields (f :: fs) i = true ↔ i ∈ Finset.Ico f.1 (f.1 + f.2) ∨ inFields fs i = true := by
  simp [inFields]

/-- Fields inside a word of `n` bits that do not overlap cover as many bits as their widths add up to. -/
theorem card_inFields (n : Nat) (fs : List (Nat × Nat)) (hin : ∀ f ∈ fs, f.1 + f.2 ≤ n)
    (hapart : fs.Pairwise fun f g => f.1 + f.2 ≤ g.1 ∨ g.1 + g.2 ≤ f.1) :
    ((Finset.range n).filter fun i => inFields fs i).card = (fs.map Prod.snd).sum := by
  induction fs with
  | nil => simp [inFields]
  | cons f fs ih =>
    obtain ⟨hf, hapart⟩ := List.pairwise_cons.1 hapart
    have hfn : f.1 + f.2 ≤ n := hin f List.mem_cons_self
    have hsplit : ((Finset.range n).filter fun i => inFields (f :: fs) i) =
        Finset.Ico f.1 (f.1 + f.2) ∪ (Finset.range n).filter fun i => inFields fs i := by
      ext i
      simp only [Finset.mem_filter, Finset.mem_range, Finset.mem_union, inFields_cons, Finset.mem_Ico]
      grind
    have hdisjoint : Disjoint (Finset.Ico f.1 (f.1 + f.2)) ((Finset.range n).filter fun i => inFields fs i) := by
      rw [Finset.disjoint_left]
      intro i hi hfs
      simp only [Finset.mem_filter, inFields, List.any_eq_true, Bool.and_eq_true, decide_eq_true_eq] at hfs
      obtain ⟨-, g, hg, hlow, hhigh⟩ := hfs
      have := hf g hg
      rw [Finset.mem_Ico] at hi
      omega
    rw [hsplit, Finset.card_union_of_disjoint hdisjoint, Nat.card_Ico,
      ih (fun g hg => hin g (List.mem_cons_of_mem f hg)) hapart]
    simp

/-- R79: the seven fields take 29 of the 32 bits. -/
theorem unassigned_bits_count {p : Params} (h : p.legal = true) :
    ((List.range 32).filter fun i => !assignedBit p i).length = 3 := by
  obtain ⟨hin, hapart⟩ := legal_fields h
  have hcovered : ((Finset.range 32).filter fun i => assignedBit p i).card = 29 := by
    simp only [assignedBit_eq_inFields]
    exact card_inFields 32 p.statusFields hin hapart
  have hall := Finset.card_filter_add_card_filter_not (s := Finset.range 32) (fun i => assignedBit p i = true)
  have hlist : ((List.range 32).filter fun i => !assignedBit p i).length =
      ((Finset.range 32).filter fun i => ¬ assignedBit p i = true).card := by
    rw [← List.toFinset_card_of_nodup (List.nodup_range.filter _)]
    congr 1
    ext i
    simp
  rw [Finset.card_range] at hall
  omega

/-- The bits of a status field are assigned bits of the word. -/
theorem assignedBit_of_mem {p : Params} {f : Nat × Nat} (hf : f ∈ p.statusFields) {i : Nat} (hi : i < f.2) :
    assignedBit p (f.1 + i) = true := by
  simp only [assignedBit, List.any_eq_true, Bool.and_eq_true, decide_eq_true_eq]
  exact ⟨f, hf, by omega, by omega⟩

/-- R79: two words that agree on every assigned bit agree on every status field. -/
theorem statusField_congr {p : Params} (h : p.legal = true) {w w' : Word32}
    (hw : ∀ i, i < 32 → assignedBit p i = true → w.getLsbD i = w'.getLsbD i)
    {f : Nat × Nat} (hf : f ∈ p.statusFields) : w.extractLsb' f.1 f.2 = w'.extractLsb' f.1 f.2 := by
  ext i hi
  have hinside : f.1 + f.2 ≤ 32 := (legal_fields h).1 f hf
  rw [BitVec.getElem_extractLsb', BitVec.getElem_extractLsb']
  exact hw _ (by omega) (assignedBit_of_mem hf hi)

/-- R79: the decoder reads the assigned bits only. -/
theorem decodeStatus_congr {p : Params} (h : p.legal = true) {w w' : Word32}
    (hw : ∀ i, i < 32 → assignedBit p i = true → w.getLsbD i = w'.getLsbD i) :
    decodeStatus p w = decodeStatus p w' := by
  have hbit : ∀ b, (b, 1) ∈ p.statusFields → w.getLsbD b = w'.getLsbD b := by
    intro b hb
    have hinside : b + 1 ≤ 32 := (legal_fields h).1 (b, 1) hb
    exact hw b (by omega) (assignedBit_of_mem hb (i := 0) Nat.one_pos)
  have hdepth : w.extractLsb' p.lDepth 8 = w'.extractLsb' p.lDepth 8 :=
    statusField_congr h hw (f := (p.lDepth, 8)) (by simp [Params.statusFields])
  have hcode : w.extractLsb' p.lCode 16 = w'.extractLsb' p.lCode 16 :=
    statusField_congr h hw (f := (p.lCode, 16)) (by simp [Params.statusFields])
  simp only [decodeStatus, hdepth, hcode, hbit p.pDone (by simp [Params.statusFields]),
    hbit p.pMeasDone (by simp [Params.statusFields]), hbit p.pError (by simp [Params.statusFields]),
    hbit p.pWarning (by simp [Params.statusFields]), hbit p.pFifoErr (by simp [Params.statusFields])]

/-- R140: with done 1 the code passes through bit by bit. -/
theorem code_getLsbD_of_done {p : Params} {w : Word32} (hd : w.getLsbD p.pDone = true) {i : Nat} (hi : i < 16) :
    (decodeStatus p w).code.getLsbD i = w.getLsbD (p.lCode + i) := by
  simp [decodeStatus, hd, hi]

/-- R145, R146: the two sub-fields are the low 11 bits of the code. -/
theorem subfields_congr {s s' : Status} (h : ∀ i, i < 11 → s.code.getLsbD i = s'.code.getLsbD i) :
    s.errBase = s'.errBase ∧ s.errFlags = s'.errFlags := by
  constructor <;> ext i hi
  · simp only [Status.errBase, BitVec.getElem_extractLsb']
    exact h _ (by omega)
  · simp only [Status.errFlags, BitVec.getElem_extractLsb']
    exact h _ (by omega)

/-- Settles O10: the fields are disjoint and 29 bits wide together, and every output of the decoder reads fields only. -/
theorem unassignedBitsNeverMatter : Obligations.UnassignedBitsNeverMatter := fun _ hp =>
  ⟨unassigned_bits_count hp, fun _ _ hw => decodeStatus_congr hp hw,
    fun _ _ _ hi hd => code_getLsbD_of_done hd hi, fun _ _ h => subfields_congr h⟩

end Machine

end Sys2Proof

/-! # The cycles of a frame (spec/40_frame_transport.md R102 to R105) -/

namespace Sys2Proof.Machine

/-! ## Runs and the outside world -/

/-- The outside world after a run, and the parameters, which no step changes. -/
theorem run_outside {s u : State} {i : Nat} (h : run i s = .next u) :
    u.params = s.params ∧ u.env = s.env.drop i ∧ u.cycle = s.cycle + i := by
  induction i generalizing s with
  | zero =>
    obtain rfl : s = u := by simpa using h
    simp
  | succ i ih =>
    obtain ⟨t, hs, ht⟩ := run_succ_next_iff.1 h
    obtain ⟨hp, he, hc⟩ := step_outside hs
    obtain ⟨hp', he', hc'⟩ := ih ht
    exact ⟨hp'.trans hp, by rw [he', he, List.drop_tail], by omega⟩

theorem run_pinsAt {s u : State} {i : Nat} (h : run i s = .next u) (k : Nat) : pinsAt u k = pinsAt s (i + k) := by
  rw [pinsAt_congr (s := elapse s i) (by simp [run_outside h]), pinsAt_elapse]

theorem run_misoAt {s u : State} {i : Nat} (h : run i s = .next u) (k : Nat) : misoAt u k = misoAt s (i + k) := by
  rw [misoAt_congr (s := elapse s i) (by simp [run_outside h]) (by simp [run_outside h]), misoAt_elapse]

theorem NoReset.mono {s : State} {n k : Nat} (h : NoReset s n) (hk : k ≤ n) : NoReset s k :=
  fun i hi => h i (hi.trans_le hk)

theorem NoReset.after {s u : State} {n i k : Nat} (h : NoReset s n) (hrun : run i s = .next u) (hk : i + k ≤ n) :
    NoReset u k := by
  intro x hx
  rw [run_pinsAt hrun]
  exact h (i + x) (by omega)

/-! ## Time and what a frame holds -/

theorem SameCommand.trans {s t u : State} (h : SameCommand s t) (h' : SameCommand t u) : SameCommand s u :=
  ⟨h'.params.trans h.params, h'.kind.trans h.kind, h'.frm.trans h.frm, h'.nmax.trans h.nmax,
    h'.msync.trans h.msync, h'.env.trans h.env, h'.cycle.trans h.cycle⟩

theorem SameProgress.trans {s t u : State} (h : SameProgress s t) (h' : SameProgress t u) : SameProgress s u :=
  ⟨h'.ctl.trans h.ctl, h'.att.trans h.att, h'.rsp.trans h.rsp, h'.stRaw.trans h.stRaw, h'.st.trans h.st⟩

theorem elapse_add (s : State) (i j : Nat) : elapse (elapse s i) j = elapse s (i + j) := by
  induction j with
  | zero => rfl
  | succ j ih => rw [elapse_succ, ih, ← Nat.add_assoc, elapse_succ]

theorem elapse_sameProgress (s : State) (i : Nat) : SameProgress s (elapse s i) := by
  rw [elapse_eq]
  constructor <;> rfl

@[simp] theorem elapse_kind (s : State) (i : Nat) : (elapse s i).kind = s.kind := by rw [elapse_eq]
@[simp] theorem elapse_frm (s : State) (i : Nat) : (elapse s i).frm = s.frm := by rw [elapse_eq]
@[simp] theorem elapse_nmax (s : State) (i : Nat) : (elapse s i).nmax = s.nmax := by rw [elapse_eq]
@[simp] theorem elapse_att (s : State) (i : Nat) : (elapse s i).att = s.att := by rw [elapse_eq]
@[simp] theorem elapse_bidx (s : State) (i : Nat) : (elapse s i).bidx = s.bidx := by rw [elapse_eq]
@[simp] theorem elapse_bitn (s : State) (i : Nat) : (elapse s i).bitn = s.bitn := by rw [elapse_eq]
@[simp] theorem elapse_ph (s : State) (i : Nat) : (elapse s i).ph = s.ph := by rw [elapse_eq]
@[simp] theorem elapse_rxb (s : State) (i : Nat) : (elapse s i).rxb = s.rxb := by rw [elapse_eq]
@[simp] theorem elapse_rxacc (s : State) (i : Nat) : (elapse s i).rxacc = s.rxacc := by rw [elapse_eq]
@[simp] theorem elapse_csN (s : State) (i : Nat) : (elapse s i).csN = s.csN := by rw [elapse_eq]
@[simp] theorem elapse_sclk (s : State) (i : Nat) : (elapse s i).sclk = s.sclk := by rw [elapse_eq]
@[simp] theorem elapse_mosi (s : State) (i : Nat) : (elapse s i).mosi = s.mosi := by rw [elapse_eq]

/-- R28: the flops depend on the present level and the flops only. -/
theorem SameCommand.nextSync {s t : State} (h : SameCommand s t) : nextSync t = nextSync s := by
  rw [Machine.nextSync, Machine.nextSync, misoAt_congr h.env h.cycle, h.msync, h.params]

/-- A cycle takes two machines with the same command to two machines with the same command. -/
theorem SameCommand.advance {s t : State} (h : SameCommand s t) :
    SameCommand (advance { s with msync := Machine.nextSync s }) (advance { t with msync := Machine.nextSync t }) where
  params := h.params
  kind := h.kind
  frm := h.frm
  nmax := h.nmax
  msync := h.nextSync
  env := congrArg List.tail h.env
  cycle := congrArg (· + 1) h.cycle

theorem SameCommand.elapse {s t : State} (h : SameCommand s t) (i : Nat) :
    SameCommand (elapse s i) (elapse t i) := by
  induction i with
  | zero => exact h
  | succ i ih => exact ih.advance

/-- R105: at the end of a half period the synchronised input is the level of `SYNC_STAGES` cycles before. -/
theorem misoSynced_of_syncStages_le {s : State} {i : Nat} (h : s.params.syncStages ≤ i) :
    misoSynced (elapse s i) = misoAt s (i - s.params.syncStages) := by
  by_cases h0 : i = 0
  · have hsync : s.params.syncStages = 0 := by omega
    simp [h0, hsync, misoSynced]
  · exact misoSynced_elapse s i (by omega) h

/-- `u` is the machine `i` cycles after `s`, all of them inside one frame: time has passed, and of the registers only
the transport's own may differ. -/
structure InFrame (s : State) (i : Nat) (u : State) : Prop where
  reached : run i s = .next u
  command : SameCommand (elapse s i) u
  progress : SameProgress s u

/-- One cycle of the transport FSM. -/
def frameTick (s : State) : State := advance { transportEdge s with msync := nextSync s }

theorem step_eq_frameTick {s : State} (hl : s.params.legal = true) (hc : s.ctl = .xfer)
    (hr : (pinsAt s 0).rst = false) : step s = .next (frameTick s) := by
  rw [step_busy hl hr (by simp [hc])]
  simp [fsmEdge, hc, frameTick]

theorem transportEdge_sameProgress {s : State} (h : s.xs ≠ .hold) : SameProgress s (transportEdge s) :=
  (transportEdge_cases s).resolve_right fun hend => h hend.1

section
variable {s u v : State} {i j : Nat}

theorem InFrame.params (h : InFrame s i u) : u.params = s.params := (run_outside h.reached).1

theorem InFrame.frm (h : InFrame s i u) : u.frm = s.frm := by
  rw [h.command.frm, elapse_frm]

theorem InFrame.refl (s : State) : InFrame s 0 s := ⟨rfl, .refl s, .refl s⟩

theorem InFrame.trans (h : InFrame s i u) (h' : InFrame u j v) : InFrame s (i + j) v where
  reached := (run_add i j h.reached).trans h'.reached
  command := elapse_add s i j ▸ (h.command.elapse j).trans h'.command
  progress := h.progress.trans h'.progress

/-- A cycle of a frame that does not end it. -/
theorem InFrame.tick (h : InFrame s i u) (hl : u.params.legal = true) (hc : u.ctl = .xfer) (hx : u.xs ≠ .hold)
    (hr : (pinsAt u 0).rst = false) : InFrame s (i + 1) (frameTick u) where
  reached := by rw [run_add i 1 h.reached, run_succ_of_step (step_eq_frameTick hl hc hr), run_zero]
  command := h.command.advance.trans
    { transportEdge_sameCommand u with
      msync := rfl
      env := congrArg List.tail (transportEdge_sameCommand u).env
      cycle := congrArg (· + 1) (transportEdge_sameCommand u).cycle }
  progress := h.progress.trans { transportEdge_sameProgress hx with }

/-- R103: a timed phase of a frame, up to its last cycle. -/
theorem inFrame_timing (hl : s.params.legal = true) (hc : s.ctl = .xfer)
    (hx : s.xs = .pre ∨ s.xs = .setup ∨ s.xs = .gap ∨ s.xs = .hold) (hr : NoReset s s.tcnt) :
    InFrame s s.tcnt { elapse s s.tcnt with tcnt := 0 } where
  reached := by rw [run_timing hl (.inr ⟨hc, hx⟩) s.tcnt (le_refl _) hr, Nat.sub_self]
  command := ⟨rfl, rfl, rfl, rfl, rfl, rfl, rfl⟩
  progress := { elapse_sameProgress s s.tcnt with }

/-- R104: half a period of a bit, up to its last cycle. -/
theorem inFrame_half (hl : s.params.legal = true) (hc : s.ctl = .xfer) (hx : s.xs = .shift)
    (hr : NoReset s s.hcnt) : InFrame s s.hcnt { elapse s s.hcnt with hcnt := 0 } where
  reached := by rw [run_half hl hc hx s.hcnt (le_refl _) hr, Nat.sub_self]
  command := ⟨rfl, rfl, rfl, rfl, rfl, rfl, rfl⟩
  progress := { elapse_sameProgress s s.hcnt with }

/-- R103: a timed phase of `n` cycles and the edge that ends it. -/
theorem inFrame_timed_phase {n : Nat} (hl : s.params.legal = true) (hc : s.ctl = .xfer)
    (hx : s.xs = .pre ∨ s.xs = .setup ∨ s.xs = .gap) (hpos : 1 ≤ n) (ht : s.tcnt = n - 1) (hr : NoReset s n) :
    InFrame s n (frameTick { elapse s s.tcnt with tcnt := 0 }) := by
  have hlast := inFrame_timing hl hc (hx.imp_right fun h => h.imp_right .inl) (hr.mono (by omega))
  have hnow := hr.after hlast.reached (k := 1) (by omega) 0 Nat.one_pos
  have htick := hlast.tick (by simpa using hl) (by simpa using hc)
    (by rcases hx with hx | hx | hx <;> simp [hx]) hnow
  have hcycles : s.tcnt + 1 = n := by omega
  rwa [hcycles] at htick

end

/-! ## One half period of a bit (R104) -/

/-- A cycle of bit `j` of byte `k`, in its first or its second half, with `left` more cycles in that half. `mosi` holds
the bit, except in the first half of a bit with CPHA 1, whose leading edge drives it. -/
structure InHalf (u : State) (second : Bool) (left k j : Nat) : Prop where
  legal : u.params.legal = true
  ctl : u.ctl = .xfer
  xs : u.xs = .shift
  byte : u.bidx.toNat = k
  bit : u.bitn.toNat = j
  count : u.hcnt = left
  half : u.ph = second
  select : u.csN = false
  level : u.params.spiMode.cpha = false ∨ second = true → u.mosi = txBit u.params.bitOrder u.frm k j

/-- The first cycle of the gap after byte `k`, or of the hold after byte 6. -/
structure ByteEnds (u : State) (k : Nat) : Prop where
  legal : u.params.legal = true
  ctl : u.ctl = .xfer
  xs : u.xs = if k < 6 then .gap else .hold
  timer : u.tcnt = (if k < 6 then u.params.tGap else u.params.tHold) - 1
  byte : u.bidx.toNat = k
  bit : u.bitn.toNat = 7
  count : u.hcnt = u.params.sclkHalf - 1
  half : u.ph = false
  select : u.csN = false
  clock : u.sclk = u.params.spiMode.cpol
  level : u.mosi = false

/-- The byte register after the edge that ends a half period and sees the level `m`: it samples in one of the two halves
of a bit. -/
def rxAfterHalf (u : State) (second m : Bool) : Byte :=
  if second = u.params.spiMode.cpha then shiftIn u.params.bitOrder u.rxb m else u.rxb

/-- R104: a leading edge changes `mosi` with CPHA 1 and samples with CPHA 0. -/
theorem leadingEdge_eq (s : State) :
    leadingEdge s =
      { s with
        ph := true, sclk := !s.params.spiMode.cpol, hcnt := s.params.sclkHalf - 1
        rxb := rxAfterHalf s false (misoSynced s)
        mosi := if s.params.spiMode.cpha then txBit s.params.bitOrder s.frm s.bidx.toNat s.bitn.toNat
                else s.mosi } := by
  rcases leadingEdge_cases s with ⟨hcpha, e⟩ | ⟨hcpha, e⟩ <;> simp [e, hcpha, rxAfterHalf]

/-- R104: what every trailing edge does: the first half of a bit follows, and with CPHA 1 it samples. -/
def trailed (s : State) : State :=
  { s with
    ph := false, sclk := s.params.spiMode.cpol, hcnt := s.params.sclkHalf - 1
    rxb := rxAfterHalf s true (misoSynced s) }

theorem trailingEdge_of_lt {s : State} (h : s.bitn.toNat < 7) :
    trailingEdge s =
      { trailed s with
        bitn := s.bitn + 1
        mosi := if s.params.spiMode.cpha then s.mosi
                else txBit s.params.bitOrder s.frm s.bidx.toNat (s.bitn.toNat + 1) } := by
  rcases trailingEdge_cases s with ⟨-, e⟩ | ⟨hlast, -⟩
  · simp [e, trailed, rxAfterHalf]
  · omega

theorem trailingEdge_of_last {s : State} (h : s.bitn.toNat = 7) : trailingEdge s = endByte (trailed s) := by
  rcases trailingEdge_cases s with ⟨hearly, -⟩ | ⟨-, e⟩
  · omega
  · simp [e, trailed, rxAfterHalf]

/-- R103: the end of a byte in one equation. -/
theorem endByte_eq (s : State) :
    endByte s =
      { s with
        rxacc := if 3 ≤ s.bidx.toNat then accumulate s.rxacc s.rxb else s.rxacc
        mosi := false, xs := if s.bidx.toNat < 6 then .gap else .hold
        tcnt := (if s.bidx.toNat < 6 then s.params.tGap else s.params.tHold) - 1 } := by
  rcases endByte_cases s with ⟨hb, e⟩ | ⟨hb, e⟩
  · simp [e, hb]
  · have h3 : 3 ≤ s.bidx.toNat := by omega
    have h6 : ¬ s.bidx.toNat < 6 := by omega
    simp [e, h3, h6]

section
variable {u v : State} {second : Bool} {left k j : Nat}

theorem InHalf.shiftEdge (h : InHalf u second 0 k j) :
    transportEdge u = if second then trailingEdge u else leadingEdge u := by
  simp [transportEdge, h.xs, Machine.shiftEdge, h.count, h.half]

/-- R104: the edge between the two halves of a bit. -/
theorem InHalf.leading (h : InHalf u false 0 k j) :
    InHalf (frameTick u) true (u.params.sclkHalf - 1) k j ∧
      (frameTick u).rxb = rxAfterHalf u false (misoSynced u) ∧ (frameTick u).rxacc = u.rxacc := by
  have hedge : transportEdge u = leadingEdge u := h.shiftEdge
  rw [frameTick, hedge, leadingEdge_eq]
  refine ⟨?_, rfl, rfl⟩
  exact { h with
    count := rfl
    half := rfl
    level := fun _ => by
      cases hcpha : u.params.spiMode.cpha
      · simpa [hcpha] using h.level (.inl hcpha)
      · simp [h.byte, h.bit] }

/-- R104: the edge between two bits of a byte. -/
theorem InHalf.trailing (h : InHalf u true 0 k j) (hj : j < 7) :
    InHalf (frameTick u) false (u.params.sclkHalf - 1) k (j + 1) ∧
      (frameTick u).rxb = rxAfterHalf u true (misoSynced u) ∧ (frameTick u).rxacc = u.rxacc := by
  have hbit : u.bitn.toNat < 7 := h.bit.trans_lt hj
  have hnext : (u.bitn + 1).toNat = j + 1 := by
    have := h.bit
    bv_omega
  have hedge : transportEdge u = trailingEdge u := h.shiftEdge
  rw [frameTick, hedge, trailingEdge_of_lt hbit]
  refine ⟨?_, rfl, rfl⟩
  exact { h with
    bit := by simpa using hnext
    count := rfl
    half := rfl
    level := fun hlevel => by
      have hcpha : u.params.spiMode.cpha = false := hlevel.resolve_right (by decide)
      simp [hcpha, h.byte, h.bit, trailed] }

/-- R103: the edge that ends a byte. -/
theorem InHalf.endByte (h : InHalf u true 0 k 7) :
    ByteEnds (frameTick u) k ∧ (frameTick u).rxb = rxAfterHalf u true (misoSynced u) ∧
      (frameTick u).rxacc = if 3 ≤ k then accumulate u.rxacc (frameTick u).rxb else u.rxacc := by
  have hedge : transportEdge u = trailingEdge u := h.shiftEdge
  have hbyte : (trailed u).bidx.toNat = k := h.byte
  rw [frameTick, hedge, trailingEdge_of_last h.bit]
  rw [endByte_eq, hbyte]
  refine ⟨?_, rfl, rfl⟩
  exact { h with
    xs := rfl
    timer := rfl
    count := rfl
    half := rfl
    clock := rfl
    level := rfl }

/-- R104, R105: the last cycle of a half period, and the level of `miso` that it sees. -/
theorem InHalf.lastCycle (h : InHalf u second (u.params.sclkHalf - 1) k j) (hr : NoReset u u.params.sclkHalf) :
    ∃ w, InFrame u (u.params.sclkHalf - 1) w ∧ InHalf w second 0 k j ∧
      misoSynced w = misoAt u (u.params.sclkHalf - 1 - u.params.syncStages) ∧ w.rxb = u.rxb ∧ w.rxacc = u.rxacc := by
  obtain ⟨hpos, hsync⟩ := legal_clock h.legal
  have hlast := inFrame_half h.legal h.ctl h.xs (hr.mono (by rw [h.count]; omega))
  rw [h.count] at hlast
  refine ⟨_, hlast, ?_, misoSynced_of_syncStages_le hsync, elapse_rxb _ _, elapse_rxacc _ _⟩
  constructor <;> simp [h.legal, h.ctl, h.xs, h.byte, h.bit, h.half, h.select]
  simpa using h.level

/-- R104: in the sampling cycle of a bit `mosi` holds the bit. -/
theorem InHalf.sampling (h : InHalf u second 0 k j) (hsecond : second = u.params.spiMode.cpha) :
    Sampling u ∧ u.bidx.toNat = k ∧ u.bitn.toNat = j ∧ u.csN = false ∧
      u.mosi = txBit u.params.bitOrder u.frm k j :=
  ⟨⟨h.ctl, h.xs, h.count, h.half.trans hsecond⟩, h.byte, h.bit, h.select,
    h.level (by cases second <;> simp [← hsecond])⟩

/-- A half period and the edge that ends it. -/
theorem InFrame.halfTick (hrun : InFrame u (u.params.sclkHalf - 1) v) (h : InHalf v second 0 k j)
    (hr : NoReset u u.params.sclkHalf) : InFrame u u.params.sclkHalf (frameTick v) := by
  have hpos : 1 ≤ u.params.sclkHalf := hrun.params ▸ (legal_clock h.legal).1
  have hnow : (pinsAt v 0).rst = false := hr.after hrun.reached (k := 1) (by omega) 0 Nat.one_pos
  have htick := hrun.tick h.legal h.ctl (by simp [h.xs]) hnow
  rwa [Nat.sub_add_cancel hpos] at htick

/-! ## One bit, one byte -/

/-- R104, R105: the cycle of a bit in which `miso` is sampled, counted from the first cycle of the bit. -/
def bitSample (p : Params) : Nat := (if p.spiMode.cpha then 2 * p.sclkHalf else p.sclkHalf) - 1

/-- The byte register after a whole bit that began in `u`. -/
def rxAfterBit (u : State) : Byte :=
  shiftIn u.params.bitOrder u.rxb (misoAt u (bitSample u.params - u.params.syncStages))

/-- R104: of the two halves of a bit exactly one samples. -/
theorem rxAfterHalf_twice (hl : u.params.legal = true) (hrun : InFrame u u.params.sclkHalf v)
    (hrx : v.rxb = rxAfterHalf u false (misoAt u (u.params.sclkHalf - 1 - u.params.syncStages))) :
    rxAfterHalf v true (misoAt v (v.params.sclkHalf - 1 - v.params.syncStages)) = rxAfterBit u := by
  obtain ⟨hpos, hsync⟩ := legal_clock hl
  rw [run_misoAt hrun.reached, hrun.params]
  cases hcpha : u.params.spiMode.cpha
  · simp [rxAfterHalf, rxAfterBit, bitSample, hrx, hrun.params, hcpha]
  · have hcycle : u.params.sclkHalf + (u.params.sclkHalf - 1 - u.params.syncStages) =
        2 * u.params.sclkHalf - 1 - u.params.syncStages := by omega
    simp [rxAfterHalf, rxAfterBit, bitSample, hrx, hrun.params, hcpha, hcycle]

/-- A bit from its first cycle to the last cycle of its second half. -/
theorem InHalf.bit_lastCycle (h : InHalf u false (u.params.sclkHalf - 1) k j)
    (hr : NoReset u (2 * u.params.sclkHalf)) :
    ∃ m w, InFrame u u.params.sclkHalf m ∧ InFrame m (m.params.sclkHalf - 1) w ∧ InHalf w true 0 k j ∧
      NoReset m m.params.sclkHalf ∧ rxAfterHalf w true (misoSynced w) = rxAfterBit u ∧ w.rxacc = u.rxacc := by
  obtain ⟨w, hw, hwhalf, hwsync, hwrx, hwacc⟩ := h.lastCycle (hr.mono (by omega))
  have hm := hw.halfTick hwhalf (hr.mono (by omega))
  obtain ⟨hmhalf, hmrx, hmacc⟩ := hwhalf.leading
  have hmreset : NoReset (frameTick w) (frameTick w).params.sclkHalf :=
    hr.after hm.reached (by rw [hm.params]; omega)
  rw [hw.params, ← hm.params] at hmhalf
  obtain ⟨x, hx, hxhalf, hxsync, hxrx, hxacc⟩ := hmhalf.lastCycle hmreset
  have hrx1 : (frameTick w).rxb = rxAfterHalf u false (misoAt u (u.params.sclkHalf - 1 - u.params.syncStages)) := by
    rw [hmrx, hwsync, rxAfterHalf, rxAfterHalf, hw.params, hwrx]
  have hrx2 : rxAfterHalf x true (misoSynced x) = rxAfterBit u := by
    rw [← rxAfterHalf_twice h.legal hm hrx1, hxsync, rxAfterHalf, rxAfterHalf, hx.params, hxrx]
  exact ⟨_, x, hm, hx, hxhalf, hmreset, hrx2, hxacc.trans (hmacc.trans hwacc)⟩

/-- R104: one bit that is not the last of its byte. -/
theorem InHalf.bit_next (h : InHalf u false (u.params.sclkHalf - 1) k j) (hj : j < 7)
    (hr : NoReset u (2 * u.params.sclkHalf)) :
    ∃ v, InFrame u (2 * u.params.sclkHalf) v ∧ InHalf v false (v.params.sclkHalf - 1) k (j + 1) ∧
      v.rxb = rxAfterBit u ∧ v.rxacc = u.rxacc := by
  obtain ⟨m, w, hm, hw, hwhalf, hmreset, hrx, hacc⟩ := h.bit_lastCycle hr
  have htick := hm.trans (hw.halfTick hwhalf hmreset)
  obtain ⟨hnext, hnextrx, hnextacc⟩ := hwhalf.trailing hj
  rw [hm.params, ← Nat.two_mul] at htick
  rw [hw.params, hm.params, ← htick.params] at hnext
  exact ⟨_, htick, hnext, hnextrx.trans hrx, hnextacc.trans hacc⟩

/-- R104: the last bit of a byte. -/
theorem InHalf.bit_last (h : InHalf u false (u.params.sclkHalf - 1) k 7)
    (hr : NoReset u (2 * u.params.sclkHalf)) :
    ∃ v, InFrame u (2 * u.params.sclkHalf) v ∧ ByteEnds v k ∧ v.rxb = rxAfterBit u ∧
      v.rxacc = if 3 ≤ k then accumulate u.rxacc v.rxb else u.rxacc := by
  obtain ⟨m, w, hm, hw, hwhalf, hmreset, hrx, hacc⟩ := h.bit_lastCycle hr
  have htick := hm.trans (hw.halfTick hwhalf hmreset)
  obtain ⟨hend, hendrx, hendacc⟩ := hwhalf.endByte
  rw [hm.params, ← Nat.two_mul] at htick
  rw [hacc] at hendacc
  exact ⟨_, htick, hend, hendrx.trans hrx, hendacc⟩

/-- R104: in the cycle of a bit that ends in its sampling edge, `mosi` holds the bit. -/
theorem InHalf.bit_sampling (h : InHalf u false (u.params.sclkHalf - 1) k j)
    (hr : NoReset u (2 * u.params.sclkHalf)) :
    ∃ v, InFrame u (bitSample u.params) v ∧ Sampling v ∧ v.bidx.toNat = k ∧ v.bitn.toNat = j ∧ v.csN = false ∧
      v.mosi = txBit u.params.bitOrder u.frm k j := by
  cases hcpha : u.params.spiMode.cpha
  · obtain ⟨w, hw, hwhalf, -⟩ := h.lastCycle (hr.mono (by omega))
    have hs := hwhalf.sampling (by rw [hw.params, hcpha])
    rw [hw.params, hw.frm] at hs
    exact ⟨w, by simpa [bitSample, hcpha] using hw, hs⟩
  · obtain ⟨m, w, hm, hw, hwhalf, -⟩ := h.bit_lastCycle hr
    have hmw := hm.trans hw
    have hpos : 1 ≤ u.params.sclkHalf := (legal_clock h.legal).1
    have hcycle : u.params.sclkHalf + (m.params.sclkHalf - 1) = bitSample u.params := by
      rw [hm.params]
      simp [bitSample, hcpha]
      omega
    rw [hcycle] at hmw
    have hs := hwhalf.sampling (by rw [hmw.params, hcpha])
    rw [hmw.params, hmw.frm] at hs
    exact ⟨w, hmw, hs⟩

end

/-! ## The byte register (R104) -/

/-- The byte register after `n` samples of the levels `m 0`, `m 1`, … -/
def samples (order : BitOrder) (b : Byte) (m : Nat → Bool) (n : Nat) : Byte :=
  (List.range n).foldl (fun r i => shiftIn order r (m i)) b

@[simp] theorem samples_zero (order : BitOrder) (b : Byte) (m : Nat → Bool) : samples order b m 0 = b := rfl

theorem samples_succ (order : BitOrder) (b : Byte) (m : Nat → Bool) (n : Nat) :
    samples order b m (n + 1) = shiftIn order (samples order b m n) (m n) := by
  simp [samples, List.range_succ]

theorem shiftIn_msbFirst_getLsbD (b : Byte) (m : Bool) {i : Nat} (hi : i < 8) :
    (shiftIn .msbFirst b m).getLsbD i = if i = 0 then m else b.getLsbD (i - 1) := by
  rw [shiftIn, BitVec.getLsbD_append]
  by_cases h0 : i = 0
  · simp [h0]
  · have h7 : i - 1 < 7 := by omega
    simp [h0, h7]

theorem shiftIn_lsbFirst_getLsbD (b : Byte) (m : Bool) {i : Nat} (hi : i < 8) :
    (shiftIn .lsbFirst b m).getLsbD i = if i = 7 then m else b.getLsbD (i + 1) := by
  rw [shiftIn, BitVec.getLsbD_append]
  by_cases h7 : i = 7
  · simp [h7]
  · have hlt : i < 7 := by omega
    simp [h7, hlt, Nat.add_comm]

/-- R104: most significant first, the newest sample is bit 0. -/
theorem samples_msbFirst_getLsbD (b : Byte) (m : Nat → Bool) (n : Nat) {i : Nat} (hi : i < 8) :
    (samples .msbFirst b m n).getLsbD i = if i < n then m (n - 1 - i) else b.getLsbD (i - n) := by
  induction n generalizing i with
  | zero => simp
  | succ n ih =>
    rw [samples_succ, shiftIn_msbFirst_getLsbD _ _ hi]
    by_cases h0 : i = 0
    · simp [h0]
    · have hprev : i - 1 < n ↔ i < n + 1 := by omega
      have hsample : n - 1 - (i - 1) = n + 1 - 1 - i := by omega
      have hold : i - 1 - n = i - (n + 1) := by omega
      rw [if_neg h0, ih (by omega), hsample, hold]
      simp only [hprev]

/-- R104: least significant first, the newest sample is bit 7. -/
theorem samples_lsbFirst_getLsbD (b : Byte) (m : Nat → Bool) (n : Nat) {i : Nat} (hi : i < 8) :
    (samples .lsbFirst b m n).getLsbD i = if 8 ≤ i + n then m (i + n - 8) else b.getLsbD (i + n) := by
  induction n generalizing i with
  | zero => simp [hi]
  | succ n ih =>
    rw [samples_succ, shiftIn_lsbFirst_getLsbD _ _ hi]
    by_cases h7 : i = 7
    · have hnew : 8 ≤ 7 + (n + 1) := by omega
      have hsample : 7 + (n + 1) - 8 = n := by omega
      simp [h7, hnew, hsample]
    · rw [if_neg h7, ih (by omega), Nat.add_assoc, Nat.add_comm 1 n]

/-- R104: eight samples leave nothing of what the byte register held. -/
theorem samples_eight (order : BitOrder) (b b' : Byte) (m : Nat → Bool) :
    samples order b m 8 = samples order b' m 8 := by
  apply BitVec.eq_of_getLsbD_eq
  intro i hi
  cases order with
  | msbFirst => rw [samples_msbFirst_getLsbD _ _ _ hi, samples_msbFirst_getLsbD _ _ _ hi, if_pos hi, if_pos hi]
  | lsbFirst =>
    have hall : 8 ≤ i + 8 := Nat.le_add_left 8 i
    rw [samples_lsbFirst_getLsbD _ _ _ hi, samples_lsbFirst_getLsbD _ _ _ hi, if_pos hall, if_pos hall]

/-! ## The cycles of a byte, of the bytes of a frame, and of a frame -/

theorem syncStages_le_bitSample {p : Params} (h : p.legal = true) : p.syncStages ≤ bitSample p := by
  obtain ⟨hpos, hsync⟩ := legal_clock h
  unfold bitSample
  split <;> omega

section
variable {u v : State} {k j : Nat}

/-- R104: the first `j` bits of a byte. -/
theorem InHalf.bits (h : InHalf u false (u.params.sclkHalf - 1) k 0) (hj : j ≤ 7)
    (hr : NoReset u (2 * u.params.sclkHalf * j)) :
    ∃ v, InFrame u (2 * u.params.sclkHalf * j) v ∧ InHalf v false (v.params.sclkHalf - 1) k j ∧
      v.rxb = samples u.params.bitOrder u.rxb
        (fun i => misoAt u (2 * u.params.sclkHalf * i + bitSample u.params - u.params.syncStages)) j ∧
      v.rxacc = u.rxacc := by
  induction j with
  | zero => exact ⟨u, .refl u, h, rfl, rfl⟩
  | succ j ih =>
    rw [Nat.mul_succ] at hr
    obtain ⟨v, hv, hvbit, hvrx, hvacc⟩ := ih (by omega) (hr.mono (by omega))
    obtain ⟨w, hw, hwbit, hwrx, hwacc⟩ := hvbit.bit_next (by omega) (hr.after hv.reached (by rw [hv.params]))
    have hrun := hv.trans hw
    rw [hv.params, ← Nat.mul_succ] at hrun
    have hsync := syncStages_le_bitSample h.legal
    refine ⟨w, hrun, hwbit, ?_, hwacc.trans hvacc⟩
    rw [hwrx, rxAfterBit, hv.params, hvrx, run_misoAt hv.reached, ← Nat.add_sub_assoc hsync, samples_succ]

/-- R103, R104: a whole byte: its eight bits are received, and the last four bytes enter the response. -/
theorem InHalf.wholeByte (h : InHalf u false (u.params.sclkHalf - 1) k 0) (hr : NoReset u (byteCycles u.params)) :
    ∃ v, InFrame u (byteCycles u.params) v ∧ ByteEnds v k ∧
      v.rxb = samples u.params.bitOrder 0
        (fun i => misoAt u (2 * u.params.sclkHalf * i + bitSample u.params - u.params.syncStages)) 8 ∧
      v.rxacc = if 3 ≤ k then accumulate u.rxacc v.rxb else u.rxacc := by
  have hcycles : byteCycles u.params = 2 * u.params.sclkHalf * 7 + 2 * u.params.sclkHalf := by
    unfold byteCycles
    omega
  rw [hcycles] at hr ⊢
  obtain ⟨v, hv, hvbit, hvrx, hvacc⟩ := h.bits (le_refl 7) (hr.mono (by omega))
  obtain ⟨w, hw, hwend, hwrx, hwacc⟩ := hvbit.bit_last (hr.after hv.reached (by rw [hv.params]))
  have hrun := hv.trans hw
  rw [hv.params] at hrun
  have hsync := syncStages_le_bitSample h.legal
  refine ⟨w, hrun, hwend, ?_, by rw [hwacc, hvacc]⟩
  rw [hwrx, rxAfterBit, hv.params, hvrx, run_misoAt hv.reached, ← Nat.add_sub_assoc hsync,
    samples_eight _ 0 u.rxb, samples_succ _ _ _ 7]

/-- R103: the first cycle of `X_PRE`. -/
structure FrameBegins (u : State) : Prop where
  legal : u.params.legal = true
  ctl : u.ctl = .xfer
  xs : u.xs = .pre
  timer : u.tcnt = u.params.tIdle - 1
  select : u.csN = true

/-- R103: the first cycle of `X_SETUP`. -/
structure SetupBegins (u : State) : Prop where
  legal : u.params.legal = true
  ctl : u.ctl = .xfer
  xs : u.xs = .setup
  timer : u.tcnt = u.params.tSetup - 1
  select : u.csN = false

/-- R103: the edge that begins a byte. -/
theorem beginByte_inHalf {s : State} (hl : s.params.legal = true) (hc : s.ctl = .xfer) (hx : s.xs = .shift)
    (hb : s.bidx.toNat = k) (hcs : s.csN = false) :
    InHalf (advance { beginByte s k with msync := nextSync u }) false (s.params.sclkHalf - 1) k 0 where
  legal := hl
  ctl := hc
  xs := hx
  byte := hb
  bit := rfl
  count := rfl
  half := rfl
  select := hcs
  level := fun hlevel => by
    have hcpha : s.params.spiMode.cpha = false := hlevel.resolve_right (by decide)
    simp [hcpha]

theorem frameTick_pre {s : State} (hx : s.xs = .pre) (h0 : s.tcnt = 0) :
    frameTick s =
      advance { s with xs := .setup, csN := false, tcnt := s.params.tSetup - 1, msync := nextSync s } := by
  simp only [frameTick, transportEdge, hx, timed_zero h0]

theorem frameTick_setup {s : State} (hx : s.xs = .setup) (h0 : s.tcnt = 0) :
    frameTick s = advance { beginByte { s with xs := .shift, bidx := 0 } 0 with msync := nextSync s } := by
  simp only [frameTick, transportEdge, hx, timed_zero h0]

theorem frameTick_gap {s : State} (hx : s.xs = .gap) (h0 : s.tcnt = 0) :
    frameTick s =
      advance { beginByte { s with xs := .shift, bidx := s.bidx + 1 } (s.bidx.toNat + 1) with
        msync := nextSync s } := by
  simp only [frameTick, transportEdge, hx, timed_zero h0]

/-- R102: the gap after byte `k`, and the next byte begins. -/
theorem ByteEnds.gap (h : ByteEnds u k) (hk : k < 6) (hr : NoReset u u.params.tGap) :
    ∃ v, InFrame u u.params.tGap v ∧ InHalf v false (v.params.sclkHalf - 1) (k + 1) 0 ∧ v.rxacc = u.rxacc := by
  obtain ⟨-, -, -, hpos, -⟩ := legal_times h.legal
  have htimer : u.tcnt = u.params.tGap - 1 := by rw [h.timer, if_pos hk]
  have hxs : u.xs = .gap := by rw [h.xs, if_pos hk]
  have htick := inFrame_timed_phase h.legal h.ctl (.inr (.inr hxs)) hpos htimer hr
  have hnext : (u.bidx + 1).toNat = k + 1 := by
    have := h.byte
    bv_omega
  rw [frameTick_gap (by simpa using hxs) rfl] at htick
  refine ⟨_, htick, ?_, elapse_rxacc _ _⟩
  simp only [elapse_bidx, h.byte]
  exact beginByte_inHalf (by simpa using h.legal) (by simpa using h.ctl) rfl hnext (by simpa using h.select)

/-- R102: the idle phase of a frame, and `cs_n` falls. -/
theorem FrameBegins.setup (h : FrameBegins u) (hr : NoReset u u.params.tIdle) :
    ∃ v, InFrame u u.params.tIdle v ∧ SetupBegins v ∧ v.rxacc = u.rxacc := by
  obtain ⟨hpos, -⟩ := legal_times h.legal
  have htick := inFrame_timed_phase h.legal h.ctl (.inl h.xs) hpos h.timer hr
  rw [frameTick_pre (by simpa using h.xs) rfl] at htick
  refine ⟨_, htick, ?_, elapse_rxacc _ _⟩
  constructor <;> simp [h.legal, h.ctl]

/-- R102: the settling after `cs_n` falls, and byte 0 begins. -/
theorem SetupBegins.firstByte (h : SetupBegins u) (hr : NoReset u u.params.tSetup) :
    ∃ v, InFrame u u.params.tSetup v ∧ InHalf v false (v.params.sclkHalf - 1) 0 0 ∧ v.rxacc = u.rxacc := by
  obtain ⟨-, hpos, -⟩ := legal_times h.legal
  have htick := inFrame_timed_phase h.legal h.ctl (.inr (.inl h.xs)) hpos h.timer hr
  rw [frameTick_setup (by simpa using h.xs) rfl] at htick
  refine ⟨_, htick, ?_, elapse_rxacc _ _⟩
  exact beginByte_inHalf (by simpa using h.legal) (by simpa using h.ctl) rfl rfl (by simpa using h.select)

end

/-! ## A whole frame -/

/-- R102: the first cycle of byte `k`, counted from the first cycle of `X_PRE`. -/
def byteStart (p : Params) (k : Nat) : Nat := p.tIdle + p.tSetup + k * (byteCycles p + p.tGap)

theorem byteStart_succ (p : Params) (k : Nat) : byteStart p (k + 1) = byteStart p k + byteCycles p + p.tGap := by
  unfold byteStart
  ring

theorem sampleCycle_eq {p : Params} (hl : p.legal = true) (k j : Nat) :
    sampleCycle p k j = byteStart p k + (2 * p.sclkHalf * j + bitSample p) := by
  have hpos : 1 ≤ p.sclkHalf := (legal_clock hl).1
  unfold sampleCycle byteStart bitSample
  split <;> omega

theorem frameCycles_eq (p : Params) : frameCycles p = byteStart p 6 + byteCycles p + p.tHold := by
  unfold frameCycles byteStart byteCycles
  ring

/-- R104: the sampling cycles of a byte lie inside the byte. -/
theorem bit_in_byte (p : Params) {j : Nat} (hj : j < 8) : 2 * p.sclkHalf * j + 2 * p.sclkHalf ≤ byteCycles p := by
  have h := Nat.mul_le_mul_left (2 * p.sclkHalf) hj
  rw [Nat.succ_eq_add_one, Nat.mul_add_one] at h
  unfold byteCycles
  omega

/-- R102: byte `k` lies inside the frame. -/
theorem byte_in_frame (p : Params) {k : Nat} (hk : k ≤ 6) : byteStart p k + byteCycles p ≤ frameCycles p := by
  have h := Nat.mul_le_mul_right (byteCycles p + p.tGap) hk
  rw [frameCycles_eq]
  unfold byteStart
  omega

/-- The response accumulator after the first `k` bytes of a frame that begins in `s`. -/
def rxAccumulated (s : State) (k : Nat) : Word32 :=
  (List.range k).foldl (fun acc i => if 3 ≤ i then accumulate acc (receivedByte s 0 i) else acc) s.rxacc

theorem rxAccumulated_succ (s : State) (k : Nat) :
    rxAccumulated s (k + 1) =
      if 3 ≤ k then accumulate (rxAccumulated s k) (receivedByte s 0 k) else rxAccumulated s k := by
  simp [rxAccumulated, List.range_succ]

/-- R75: the accumulator after seven bytes is the response. -/
theorem rxAccumulated_seven (s : State) : rxAccumulated s 7 = frameWord s 0 := by
  simp [rxAccumulated_succ, accumulate_four, frameWord]

section
variable {s u v : State} {k j : Nat}

/-- R104, R105: what a byte receives, as the command level says it. -/
theorem receivedByte_eq_samples (hl : s.params.legal = true) (hrun : InFrame s (byteStart s.params k) u) :
    samples u.params.bitOrder 0
      (fun i => misoAt u (2 * u.params.sclkHalf * i + bitSample u.params - u.params.syncStages)) 8 =
    receivedByte s 0 k := by
  have hsync := syncStages_le_bitSample hl
  have hlevel : (fun i => misoAt u (2 * u.params.sclkHalf * i + bitSample u.params - u.params.syncStages)) =
      fun j => misoAt s (0 + sampleCycle s.params k j - s.params.syncStages) := by
    funext j
    rw [run_misoAt hrun.reached, hrun.params, sampleCycle_eq hl]
    congr 1
    omega
  rw [hlevel, hrun.params]
  rfl

/-- R103: byte `k` of a frame that begins in `s`, if it begins in `u`. -/
theorem InFrame.byteEnd (hrun : InFrame s (byteStart s.params k) u) (h : InHalf u false (u.params.sclkHalf - 1) k 0)
    (hacc : u.rxacc = rxAccumulated s k) (hr : NoReset s (byteStart s.params k + byteCycles s.params)) :
    ∃ v, InFrame s (byteStart s.params k + byteCycles s.params) v ∧ ByteEnds v k ∧
      v.rxb = receivedByte s 0 k ∧ v.rxacc = rxAccumulated s (k + 1) := by
  have hl : s.params.legal = true := hrun.params ▸ h.legal
  obtain ⟨v, hv, hend, hrx, hvacc⟩ := h.wholeByte (hr.after hrun.reached (by rw [hrun.params]))
  rw [receivedByte_eq_samples hl hrun] at hrx
  rw [hrx, hacc, ← rxAccumulated_succ] at hvacc
  have htrans := hrun.trans hv
  rw [hrun.params] at htrans
  exact ⟨v, htrans, hend, hrx, hvacc⟩

/-- R102: every byte of a frame begins at its cycle, with the bytes before it received. -/
theorem FrameBegins.byteBegins (h : FrameBegins s) (hk : k ≤ 6) (hr : NoReset s (byteStart s.params k)) :
    ∃ u, InFrame s (byteStart s.params k) u ∧ InHalf u false (u.params.sclkHalf - 1) k 0 ∧
      u.rxacc = rxAccumulated s k := by
  induction k with
  | zero =>
    have hstart : byteStart s.params 0 = s.params.tIdle + s.params.tSetup := by simp [byteStart]
    rw [hstart] at hr ⊢
    obtain ⟨u, hu, husetup, huacc⟩ := h.setup (hr.mono (by omega))
    obtain ⟨v, hv, hvbyte, hvacc⟩ := husetup.firstByte (hr.after hu.reached (by rw [hu.params]))
    have hrun := hu.trans hv
    rw [hu.params] at hrun
    exact ⟨v, hrun, hvbyte, hvacc.trans huacc⟩
  | succ k ih =>
    rw [byteStart_succ] at hr ⊢
    obtain ⟨u, hu, hubyte, huacc⟩ := ih (by omega) (hr.mono (by omega))
    obtain ⟨v, hv, hvend, -, hvacc⟩ := hu.byteEnd hubyte huacc (hr.mono (by omega))
    obtain ⟨w, hw, hwbyte, hwacc⟩ := hvend.gap (by omega) (hr.after hv.reached (by rw [hv.params]))
    have hrun := hv.trans hw
    rw [hv.params] at hrun
    exact ⟨w, hrun, hwbyte, hwacc.trans hvacc⟩

/-- R104: in the sampling cycle of bit `j` of byte `k` of a frame, `mosi` holds that bit of the wire frame. -/
theorem FrameBegins.sampling (h : FrameBegins s) (hk : k < 7) (hj : j < 8) (hr : NoReset s (frameCycles s.params)) :
    ∃ u, InFrame s (sampleCycle s.params k j) u ∧ Sampling u ∧ u.bidx.toNat = k ∧ u.bitn.toNat = j ∧
      u.csN = false ∧ u.mosi = txBit s.params.bitOrder s.frm k j := by
  have hbyte := byte_in_frame s.params (k := k) (by omega)
  have hbit := bit_in_byte s.params hj
  obtain ⟨u, hu, hubyte, -⟩ := h.byteBegins (k := k) (by omega) (hr.mono (by omega))
  obtain ⟨v, hv, hvbit, -⟩ := hubyte.bits (j := j) (by omega) (hr.after hu.reached (by rw [hu.params]; omega))
  have hmid := hu.trans hv
  obtain ⟨w, hw, hwsample⟩ := hvbit.bit_sampling (hr.after hmid.reached (by rw [hmid.params, hu.params]; omega))
  have hrun := hmid.trans hw
  rw [hmid.params, hu.params, Nat.add_assoc, ← sampleCycle_eq h.legal] at hrun
  rw [hmid.params, hmid.frm] at hwsample
  exact ⟨w, hrun, hwsample⟩

/-- `v` is the last cycle of a frame that began in `s`: the last byte is in the response, and the bus is still
selected. -/
structure FrameEnds (s v : State) : Prop where
  frame : InFrame s (frameCycles s.params - 1) v
  legal : v.params.legal = true
  ctl : v.ctl = .xfer
  xs : v.xs = .hold
  timer : v.tcnt = 0
  byte : v.bidx.toNat = 6
  bit : v.bitn.toNat = 7
  count : v.hcnt = v.params.sclkHalf - 1
  half : v.ph = false
  select : v.csN = false
  clock : v.sclk = v.params.spiMode.cpol
  level : v.mosi = false
  received : v.rxb = receivedByte s 0 6
  word : v.rxacc = frameWord s 0

/-- R102, R103: a frame runs for its `F` cycles, and its last cycle holds the word that it received. -/
theorem FrameBegins.lastCycle (h : FrameBegins s) (hr : NoReset s (frameCycles s.params)) :
    ∃ v, FrameEnds s v := by
  obtain ⟨-, -, hpos, -⟩ := legal_times h.legal
  have hcycles := frameCycles_eq s.params
  obtain ⟨u, hu, hubyte, huacc⟩ := h.byteBegins (le_refl 6) (hr.mono (by omega))
  obtain ⟨v, hv, hvend, hvrx, hvacc⟩ := hu.byteEnd hubyte huacc (hr.mono (by omega))
  have hxs : v.xs = .hold := by simpa using hvend.xs
  have htimer : v.tcnt = s.params.tHold - 1 := by simpa [hv.params] using hvend.timer
  have hhold := inFrame_timing hvend.legal hvend.ctl (.inr (.inr (.inr hxs)))
    (hr.after hv.reached (by rw [htimer]; omega))
  have hrun := hv.trans hhold
  have hlast : byteStart s.params 6 + byteCycles s.params + v.tcnt = frameCycles s.params - 1 := by omega
  rw [hlast] at hrun
  rw [rxAccumulated_seven] at hvacc
  exact ⟨_,
    { frame := hrun
      legal := by simpa using hvend.legal
      ctl := by simpa using hvend.ctl
      xs := by simpa using hxs
      timer := rfl
      byte := by simpa using hvend.byte
      bit := by simpa using hvend.bit
      count := by simpa using hvend.count
      half := by simpa using hvend.half
      select := by simpa using hvend.select
      clock := by simpa using hvend.clock
      level := by simpa using hvend.level
      received := by simpa using hvrx
      word := by simpa using hvacc }⟩

end

end Sys2Proof.Machine

/-! # The attempts of a POLL (spec/42_poll_fsm.md R160 to R172) -/

namespace Sys2Proof.Machine

/-! ## The loop at the command level (R160) -/

/-- R161: the loop stays within its budget, and goes on only after a word that does not show done. -/
theorem pollLoop_spec (p : Params) (w : Nat → Word32) (left a : Nat) :
    (pollLoop p w left a).attempts ≤ a + left ∧
      ∀ i, a ≤ i → i < (pollLoop p w left a).attempts → (decodeStatus p (w i)).done = false := by
  induction left generalizing a with
  | zero => exact ⟨le_refl a, fun i hai hi => absurd hi (Nat.not_lt.2 hai)⟩
  | succ left ih =>
    rw [pollLoop]
    split
    · exact ⟨Nat.le_add_right a _, fun i hai hi => absurd hi (Nat.not_lt.2 hai)⟩
    · next hdone =>
      obtain ⟨hle, hbefore⟩ := ih (a + 1)
      refine ⟨by omega, fun i hai hi => ?_⟩
      rcases Nat.eq_or_lt_of_le hai with rfl | hlt
      · simpa using hdone
      · exact hbefore i hlt hi

/-- R161, R169: a POLL makes at most `n` attempts, and none after one that shows done. -/
theorem pollOutcome_spec (s : State) {n : Nat} (hn : 1 ≤ n) :
    (pollOutcome s n).attempts ≤ n ∧
      ∀ i, 1 ≤ i → i < (pollOutcome s n).attempts → (decodeStatus s.params (attemptWord s i)).done = false := by
  obtain ⟨hle, hbefore⟩ := pollLoop_spec s.params (attemptWord s) (n - 1) 1
  rw [Nat.add_sub_cancel' hn] at hle
  exact ⟨hle, hbefore⟩

/-! ## The word of a later frame -/

/-- R104, R105: the word of a frame depends on the levels of `miso` in its own cycles, whenever it is looked at. -/
theorem frameWord_of_later {s u : State} (hl : s.params.legal = true) {i : Nat} (hp : u.params = s.params)
    (hmiso : ∀ k, misoAt u k = misoAt s (i + k)) (start : Nat) : frameWord u start = frameWord s (i + start) := by
  have hsync := syncStages_le_bitSample hl
  have hbyte : ∀ k, receivedByte u start k = receivedByte s (i + start) k := by
    intro k
    have hlevel : (fun j => misoAt u (start + sampleCycle s.params k j - s.params.syncStages)) =
        fun j => misoAt s (i + start + sampleCycle s.params k j - s.params.syncStages) := by
      funext j
      rw [hmiso, sampleCycle_eq hl]
      congr 1
      omega
    change samples u.params.bitOrder 0
        (fun j => misoAt u (start + sampleCycle u.params k j - u.params.syncStages)) 8 = _
    rw [hp, hlevel]
    rfl
  simp only [frameWord, hbyte]

/-! ## One attempt and the wait after it -/

/-- The first cycle of the frame of a POLL of `n` attempts that has made `a` of them. -/
structure AttemptBegins (u : State) (n a : Nat) : Prop where
  frame : FrameBegins u
  kind : u.kind = .poll
  frm : u.frm = statusReadFrame u.params
  budget : u.nmax = n
  made : u.att = a

/-- The first cycle of the wait of a POLL of `n` attempts that has made `a` of them. -/
structure WaitBegins (u : State) (n a : Nat) : Prop where
  legal : u.params.legal = true
  ctl : u.ctl = .pwait
  timer : u.tcnt = u.params.tPoll - 1
  kind : u.kind = .poll
  frm : u.frm = statusReadFrame u.params
  budget : u.nmax = n
  made : u.att = a

section
variable {s t u v : State} {n a : Nat}

/-- R103: the edge that ends a frame hands its word to the control FSM. -/
theorem FrameEnds.step_eq (h : FrameEnds s v) (hr : (pinsAt v 0).rst = false) :
    step v = .next (advance { frameEnd { v with xs := .off, csN := true } (frameWord s 0) with
      msync := nextSync v }) := by
  rw [step_eq_frameTick h.legal h.ctl hr, ← h.word]
  simp only [frameTick, transportEdge, h.xs, timed_zero h.timer]

/-- R103: a frame from its first cycle to the edge that ends it. -/
theorem FrameEnds.run_eq (h : FrameEnds s v) (hr : NoReset s (frameCycles s.params)) :
    run (frameCycles s.params) s =
      .next (advance { frameEnd { v with xs := .off, csN := true } (frameWord s 0) with msync := nextSync v }) := by
  have hpos : 1 ≤ frameCycles s.params := by
    obtain ⟨hidle, -⟩ := legal_times (h.frame.params ▸ h.legal)
    unfold frameCycles
    omega
  have hnow : (pinsAt v 0).rst = false := hr.after h.frame.reached (k := 1) (by omega) 0 Nat.one_pos
  rw [← Nat.sub_add_cancel hpos, run_add _ 1 h.frame.reached, run_succ_of_step (h.step_eq hnow), run_zero]

/-- R171: an attempt that does not show done, below the budget, ends in the wait before the next. -/
theorem AttemptBegins.missed (h : AttemptBegins u n a) (hn : n < 2 ^ u.params.cntW) (ha : a + 1 < n)
    (hdone : (decodeStatus u.params (frameWord u 0)).done = false) (hr : NoReset u (frameCycles u.params)) :
    ∃ v, run (frameCycles u.params) u = .next v ∧ WaitBegins v n (a + 1) := by
  obtain ⟨v, hv⟩ := h.frame.lastCycle hr
  have hkind : v.kind = .poll := by rw [hv.frame.command.kind, elapse_kind, h.kind]
  have hbudget : v.nmax = n := by rw [hv.frame.command.nmax, elapse_nmax, h.budget]
  have hparams := hv.frame.params
  have hnext : nextAttempt { v with xs := .off, csN := true } = a + 1 := by
    simp only [nextAttempt, hparams, hv.frame.progress.att, h.made]
    exact Nat.mod_eq_of_lt (by omega)
  refine ⟨_, hv.run_eq hr, ?_⟩
  rw [frameEnd_poll (s := { v with xs := .off, csN := true }) hkind]
  rcases pollAttemptEnd_cases { v with xs := .off, csN := true } (frameWord u 0) with ⟨hend, -⟩ | ⟨-, -, e⟩
  · rw [hnext] at hend
    simp [hparams, hdone, hbudget] at hend
    omega
  · rw [e, hnext]
    exact { legal := hv.legal
            ctl := rfl
            timer := rfl
            kind := hkind
            frm := hv.frame.frm.trans (by rw [h.frm, ← hparams]; rfl)
            budget := hbudget
            made := rfl }

/-- R163, R171: after the wait the next attempt's frame starts. -/
theorem WaitBegins.next (h : WaitBegins u n a) (hr : NoReset u u.params.tPoll) :
    ∃ v, run u.params.tPoll u = .next v ∧ AttemptBegins v n a := by
  obtain ⟨-, -, -, -, hpos⟩ := legal_times h.legal
  have htimer : u.tcnt + 1 = u.params.tPoll := by
    rw [h.timer]
    omega
  have hlast := run_timing h.legal (.inl h.ctl) u.tcnt (le_refl _) (hr.mono (by omega))
  have hnow : (pinsAt { elapse u u.tcnt with tcnt := u.tcnt - u.tcnt } 0).rst = false :=
    hr.after hlast (k := 1) (by omega) 0 Nat.one_pos
  have hstep := step_busy (by simpa using h.legal) hnow (by simp [h.ctl])
  have hrun := run_add u.tcnt 1 hlast
  rw [run_succ_of_step hstep, run_zero, htimer, Nat.sub_self] at hrun
  have hedge : fsmEdge { elapse u u.tcnt with tcnt := 0 } id = startFrame { elapse u u.tcnt with tcnt := 0 } := by
    simp only [fsmEdge, elapse_ctl, h.ctl]
    exact timed_zero rfl
  rw [hedge] at hrun
  refine ⟨_, hrun, ?_⟩
  constructor
  · constructor <;> simp [h.legal]
  all_goals simp [h.kind, h.frm, h.budget, h.made]

/-- R163, R172: the frame of each attempt, and the way to the next one, lie inside the POLL. -/
theorem attempt_in_poll (p : Params) (ha : a < n) : a * attemptPitch p + frameCycles p ≤ pollCycles p n := by
  obtain ⟨m, rfl⟩ := Nat.exists_eq_add_of_lt ha
  have hpoll : pollCycles p (a + m + 1) =
      a * attemptPitch p + frameCycles p + m * (frameCycles p + p.tPoll) := by
    rw [pollCycles, Nat.add_sub_cancel, attemptPitch]
    ring
  omega

/-- R163, R171: attempt follows attempt while none shows done and the budget lasts. -/
theorem AttemptBegins.later (h : AttemptBegins t n 0) (hn : n < 2 ^ t.params.cntW) (ha : a < n)
    (hdone : ∀ i, i < a → (decodeStatus t.params (frameWord t (i * attemptPitch t.params))).done = false)
    (hr : NoReset t (pollCycles t.params n)) :
    ∃ u, run (a * attemptPitch t.params) t = .next u ∧ AttemptBegins u n a := by
  induction a with
  | zero => exact ⟨t, by simp, h⟩
  | succ a ih =>
    obtain ⟨u, hu, huatt⟩ := ih (by omega) fun i hi => hdone i (by omega)
    have hpu : u.params = t.params := (run_outside hu).1
    have hword : frameWord u 0 = frameWord t (a * attemptPitch t.params) :=
      frameWord_of_later h.frame.legal hpu (run_misoAt hu) 0
    have hpitch : (a + 1) * attemptPitch t.params =
        a * attemptPitch t.params + frameCycles t.params + t.params.tPoll := by
      unfold attemptPitch
      ring
    have hinside := attempt_in_poll t.params ha
    have hru : NoReset u (frameCycles u.params) := hr.after hu (by rw [hpu]; omega)
    obtain ⟨v, hv, hvwait⟩ := huatt.missed (hpu ▸ hn) ha
      (by rw [hword, hpu]; exact hdone a (Nat.lt_succ_self a)) hru
    have hpv : v.params = t.params := (run_outside hv).1.trans hpu
    have htv : run (a * attemptPitch t.params + frameCycles t.params) t = .next v := by
      rw [run_add _ _ hu, ← hpu, hv]
    obtain ⟨x, hx, hxatt⟩ := hvwait.next (hr.after htv (by rw [hpv]; omega))
    refine ⟨x, ?_, hxatt⟩
    rw [hpitch, run_add _ _ htv, ← hpv, hx]

/-- R171: a ready machine accepts a POLL, and its first attempt begins in the next cycle. -/
theorem pollAccepted (hs : Ready s) (h1 : 1 ≤ n) (hn : n < 2 ^ s.params.cntW) :
    ∃ t, exec (.poll n) s = .next t ∧ AttemptBegins t n 0 ∧ t.params = s.params ∧
      (∀ k, pinsAt t k = pinsAt s (1 + k)) ∧ ∀ k, misoAt t k = misoAt s (1 + k) := by
  have hcount : countOperand s.params n = n := countOperand_of_lt hn
  have hexec := (exec_poll n s).trans (clock_ready hs (acceptPoll n))
  rw [acceptPoll_pos (by omega), hcount] at hexec
  refine ⟨_, hexec, ?_, rfl, fun k => ?_, fun k => ?_⟩
  · obtain ⟨hl, -, -⟩ := hs
    exact ⟨⟨hl, rfl, rfl, rfl, rfl⟩, rfl, rfl, rfl, rfl⟩
  · rw [pinsAt_advance, Nat.add_comm]
    rfl
  · rw [misoAt_advance, Nat.add_comm]
    rfl

/-- R160, R163: the frame of attempt `a`, counted from 0, of a POLL that makes more than `a` attempts. -/
theorem poll_attemptBegins (hs : Ready s) (h1 : 1 ≤ n) (hn : n < 2 ^ s.params.cntW)
    (hr : NoReset s (pollCycles s.params n + 2)) (ha : a < (pollOutcome s n).attempts) :
    ∃ t u, exec (.poll n) s = .next t ∧ run (a * attemptPitch s.params) t = .next u ∧ AttemptBegins u n a ∧
      u.params = s.params ∧ NoReset u (frameCycles s.params) := by
  obtain ⟨t, ht, htatt, hpt, hpins, hmiso⟩ := pollAccepted hs h1 hn
  obtain ⟨hle, hbefore⟩ := pollOutcome_spec s h1
  have hrt : NoReset t (pollCycles t.params n) := fun i hi => by
    rw [hpins]
    exact hr (1 + i) (by rw [hpt] at hi; omega)
  have hmissed : ∀ i, i < a →
      (decodeStatus t.params (frameWord t (i * attemptPitch t.params))).done = false := fun i hi => by
    have hword := hbefore (i + 1) (Nat.le_add_left 1 i) (by omega)
    rwa [attemptWord, Nat.add_sub_cancel, ← frameWord_of_later hs.1 hpt hmiso, ← hpt] at hword
  obtain ⟨u, hu, huatt⟩ := htatt.later (by rwa [hpt]) (by omega) hmissed hrt
  have hinside := attempt_in_poll s.params (by omega : a < n)
  have hru : NoReset u (frameCycles s.params) := hrt.after hu (by rw [hpt]; exact hinside)
  exact ⟨t, u, ht, hpt ▸ hu, huatt, (run_outside hu).1.trans hpt, hru⟩

end

/-- Settles O28: every attempt that is made begins a frame with the status-read frame loaded, whose bits go out as those
of any frame do. -/
theorem pollSendsStatusReadFrames : Obligations.PollSendsStatusReadFrames := by
  intro s n a k j hs h1 hn hr ha hk hj
  obtain ⟨t, u, ht, hu, huatt, hpu, hru⟩ := poll_attemptBegins hs h1 hn hr ha
  obtain ⟨v, hv, hsample, hbyte, hbit, hselect, hlevel⟩ := huatt.frame.sampling hk hj (hpu ▸ hru)
  have hrun : run (a * attemptPitch s.params + sampleCycle s.params k j) t = .next v := by
    rw [run_add _ _ hu, ← hpu, hv.reached]
  rw [huatt.frm, hpu] at hlevel
  exact ⟨t, v, ht, hrun, hsample, hbyte, hbit, hselect, hlevel⟩

end Sys2Proof.Machine

/-! # The bus outside the bytes, and its delays (spec/40_frame_transport.md R101, R106; spec/42_poll_fsm.md R163) -/

namespace Sys2Proof.Machine

/-! ## The invariant along a run -/

theorem run_inv {s u : State} (h : s.Inv) {n : Nat} (hrun : run n s = .next u) : u.Inv := by
  induction n generalizing s with
  | zero =>
    obtain rfl : s = u := by simpa using hrun
    exact h
  | succ n ih =>
    obtain ⟨t, hs, ht⟩ := run_succ_next_iff.1 hrun
    exact ih (stepKeepsTheInvariant s t h hs) ht

/-- The last cycle of a run. -/
theorem run_succ_last {s u : State} {n : Nat} (h : run (n + 1) s = .next u) :
    ∃ w, run n s = .next w ∧ step w = .next u := by
  induction n generalizing s with
  | zero =>
    obtain ⟨t, hs, ht⟩ := run_succ_next_iff.1 h
    obtain rfl : t = u := by simpa using ht
    exact ⟨s, rfl, hs⟩
  | succ n ih =>
    obtain ⟨t, hs, ht⟩ := run_succ_next_iff.1 h
    obtain ⟨w, hw, hstep⟩ := ih ht
    exact ⟨w, run_succ_next_iff.2 ⟨t, hs, hw⟩, hstep⟩

/-! ## The phases in which the chip is not selected (R101, R102) -/

theorem portAction_xs (s : State) :
    (portAction s s).xs = s.xs ∨ (portAction s s).xs = .pre ∧ (portAction s s).tcnt = s.params.tIdle - 1 := by
  rcases portAction_cases s s with e | e | ⟨f, e⟩ | ⟨n, -, -, e⟩ <;> rw [e]
  · exact .inl rfl
  · exact .inl rfl
  · exact .inr ⟨rfl, rfl⟩
  · exact .inr ⟨rfl, rfl⟩

/-- R102, R103: where an edge of a machine with `xs` in `X_OFF` can lead: it stays there, or the idle phase of a frame
begins. -/
theorem fsmEdge_off {s : State} (hx : s.xs = .off) :
    (fsmEdge s (portAction s)).xs = .off ∨
    (fsmEdge s (portAction s)).xs = .pre ∧ (fsmEdge s (portAction s)).tcnt = s.params.tIdle - 1 := by
  rcases fsmEdge_cases s (portAction s) with ⟨-, e⟩ | ⟨-, e⟩ | ⟨-, e⟩ | ⟨-, e⟩ <;> rw [e]
  · simpa [hx] using portAction_xs s
  · exact .inl (by simp [transportEdge, hx])
  · rcases timed_cases s (startFrame s) with ⟨-, e'⟩ | ⟨-, e'⟩ <;> rw [e']
    · exact .inr ⟨rfl, rfl⟩
    · exact .inl hx
  · exact .inl hx

/-- R102, R103: the idle phase of a frame counts down, and ends with `cs_n` low. -/
theorem fsmEdge_pre {s : State} (h : s.Inv) (hx : s.xs = .pre) (a : State → State) :
    s.tcnt = 0 ∧ (fsmEdge s a).xs = .setup ∨
    s.tcnt ≠ 0 ∧ fsmEdge s a = { s with tcnt := s.tcnt - 1 } := by
  have hc : s.ctl = .xfer := h.xfer.2 (by simp [hx])
  have hedge : fsmEdge s a = timed s { s with xs := .setup, csN := false, tcnt := s.params.tSetup - 1 } := by
    have hctl : fsmEdge s a = transportEdge s := by simp only [fsmEdge, hc]
    rw [hctl]
    simp only [transportEdge, hx]
  rw [hedge]
  exact (timed_cases s _).imp_left fun ⟨h0, e⟩ => ⟨h0, by rw [e]⟩

/-- R102: what a step does while `cs_n` is high: the transport stays off, its idle phase begins, goes on, or ends. -/
theorem step_deselected {s t : State} (h : s.Inv) (hcs : s.csN = true) (hs : step s = .next t) :
    t.xs = .off ∨
    (t.xs = .pre ∧ t.tcnt = s.params.tIdle - 1) ∨
    (t.xs = .pre ∧ s.xs = .pre ∧ s.tcnt = t.tcnt + 1) ∨
    (t.xs = .setup ∧ s.xs = .pre ∧ s.tcnt = 0) := by
  obtain ⟨-, rfl⟩ := step_next_iff.1 hs
  cases hr : (pinsAt s 0).rst
  · rw [edge_of_no_rst hr]
    simp only [advance_xs, advance_tcnt]
    rcases h.select.1 hcs with hx | hx
    · exact (fsmEdge_off hx).imp_right .inl
    · rcases fsmEdge_pre h hx (portAction s) with ⟨h0, e⟩ | ⟨h0, e⟩
      · exact .inr (.inr (.inr ⟨e, hx, h0⟩))
      · rw [e]
        exact .inr (.inr (.inl ⟨hx, hx, by simp only; omega⟩))
  · rw [edge_of_rst hr]
    exact .inl rfl

/-- R102, R103: a phase in which the chip is selected does not lead into the idle phase of the next frame. -/
theorem transportEdge_selected {s : State} (hoff : s.xs ≠ .off) (hpre : s.xs ≠ .pre) :
    (transportEdge s).xs ≠ .pre := by
  have timed_ne_pre : ∀ d : State, d.xs ≠ .pre → (timed s d).xs ≠ .pre := fun d hd => by
    rcases timed_cases s d with ⟨-, e⟩ | ⟨-, e⟩ <;> rw [e]
    · exact hd
    · exact hpre
  cases hx : s.xs <;> simp only [transportEdge, hx]
  case off => exact absurd hx hoff
  case pre => exact absurd hx hpre
  case setup => exact timed_ne_pre _ (by simp)
  case shift =>
    obtain ⟨-, e | ⟨e, -⟩ | ⟨e, -⟩⟩ := shiftEdge_phase s hx <;> simp [e]
  case gap => exact timed_ne_pre _ (by simp)
  case hold =>
    exact timed_ne_pre _ (by simp [(frameEnd_phase { s with xs := .off, csN := true } s.rxacc).1])

/-- R102: the idle phase of a frame begins with its timer loaded, or goes on. -/
theorem step_into_pre {s t : State} (h : s.Inv) (hs : step s = .next t) (ht : t.xs = .pre) :
    t.tcnt = s.params.tIdle - 1 ∨ s.xs = .pre ∧ s.tcnt = t.tcnt + 1 := by
  by_cases hcs : s.csN = true
  · rcases step_deselected h hcs hs with e | ⟨-, e⟩ | ⟨-, e⟩ | ⟨e, -⟩
    · simp [ht] at e
    · exact .inl e
    · exact .inr e
    · simp [ht] at e
  · obtain ⟨hoff, hpre⟩ := not_or.1 (mt h.select.2 hcs)
    refine absurd ht ?_
    obtain ⟨-, rfl⟩ := step_next_iff.1 hs
    cases hr : (pinsAt s 0).rst
    · have hedge : fsmEdge s (portAction s) = transportEdge s := by simp only [fsmEdge, h.xfer.2 hoff]
      rw [edge_of_no_rst hr, hedge]
      exact transportEdge_selected hoff hpre
    · rw [edge_of_rst hr]
      simp

/-- Settles O41: at rest by the invariant; from a cycle with `cs_n` high no step leads into a byte. -/
theorem clockRestsOutsideTheBytes : Obligations.ClockRestsOutsideTheBytes := by
  intro s t h hs
  refine ⟨fun hx => (h.rest hx).symm, h.select.2, fun hx => ?_, fun hcs => ?_⟩
  · have hsel : ¬ s.csN = true := fun hcs => by
      rcases h.select.1 hcs with e | e <;> simp [e] at hx
    simpa using hsel
  · have hxs : s.xs ≠ .shift := by rcases h.select.1 hcs with e | e <;> simp [e]
    have hxt : t.xs ≠ .shift := by
      rcases step_deselected h hcs hs with e | ⟨e, -⟩ | ⟨e, -⟩ | ⟨e, -⟩ <;> simp [e]
    rw [((stepKeepsTheInvariant s t h hs).rest hxt).1, (h.rest hxs).1, (step_outside hs).1]

/-- R102: in a cycle of `X_PRE` the phase has lasted for as many cycles as its timer has counted down. -/
theorem pre_lasts {s u : State} {n : Nat} (h : s.Inv) (hx : s.xs ≠ .pre) (hrun : run n s = .next u)
    (hu : u.xs = .pre) :
    s.params.tIdle ≤ n + u.tcnt ∧
      ∀ i x, n + u.tcnt + 1 ≤ i + s.params.tIdle → i ≤ n → run i s = .next x → x.csN = true := by
  induction n generalizing u with
  | zero =>
    obtain rfl : s = u := by simpa using hrun
    exact absurd hu hx
  | succ n ih =>
    obtain ⟨w, hw, hstep⟩ := run_succ_last hrun
    have hinv := run_inv h hrun
    have now : ∀ i x, n + 1 ≤ i → i ≤ n + 1 → run i s = .next x → x.csN = true := fun i x hlo hhi hx' => by
      obtain rfl : i = n + 1 := le_antisymm hhi hlo
      obtain rfl : u = x := by simpa [hrun] using hx'
      exact hinv.select.2 (.inr hu)
    rcases step_into_pre (run_inv h hw) hstep hu with ht | ⟨hwx, ht⟩
    · rw [(run_outside hw).1] at ht
      have hpos : 1 ≤ s.params.tIdle := (legal_times h.legal).1
      exact ⟨by omega, fun i x hlo => now i x (by omega)⟩
    · obtain ⟨hle, hbefore⟩ := ih hw hwx
      refine ⟨by omega, fun i x hlo hhi hx' => ?_⟩
      rcases Nat.lt_or_ge n i with hlast | hearly
      · exact now i x hlast hhi hx'
      · exact hbefore i x (by omega) hearly hx'

/-- Settles O42: `cs_n` falls only at the end of an idle phase, which has then lasted for its `T_IDLE` cycles. -/
theorem selectHighBeforeItFalls : Obligations.SelectHighBeforeItFalls := by
  intro s n u v h hx hrun hstep hcs hfall
  have hinv := run_inv h hrun
  have hsel : ¬ (v.xs = .off ∨ v.xs = .pre) := fun hv => by
    simp [(stepKeepsTheInvariant u v hinv hstep).select.2 hv] at hfall
  rcases step_deselected hinv hcs hstep with e | ⟨e, -⟩ | ⟨e, -⟩ | ⟨-, hpre, h0⟩
  · exact absurd (.inl e) hsel
  · exact absurd (.inr e) hsel
  · exact absurd (.inr e) hsel
  · simpa [h0] using pre_lasts h hx hrun hpre

/-! ## Delays in microseconds (R101, R163, R228) -/

/-- R101, R228: a clock no faster than `CYC_US` says spends at most the counted cycles in a microsecond count. -/
theorem phaseUs_le_of_mem_framePhases {p : Params} {f n : Nat} {x : Xs} (hf : f ≤ p.cycUs)
    (hm : (x, n) ∈ framePhases p) : phaseUs p x * f ≤ n := by
  have hmul : ∀ t, t * f ≤ t * p.cycUs := fun t => Nat.mul_le_mul_left t hf
  simp only [framePhases, List.mem_append, List.mem_cons, List.mem_flatMap, List.not_mem_nil, or_false,
    Prod.mk.injEq] at hm
  rcases hm with (⟨rfl, rfl⟩ | ⟨rfl, rfl⟩) | ⟨k, -, ⟨rfl, rfl⟩ | hk⟩
  · exact hmul _
  · exact hmul _
  · exact (Nat.zero_mul f).trans_le (Nat.zero_le _)
  · split at hk <;> obtain ⟨rfl, rfl⟩ := Prod.mk.inj hk <;> exact hmul _

/-- R103: a step that brings the machine into a timed phase loads the timer with that phase's cycles, less one. -/
theorem step_enters_timed {s u : State} (hs : step s = .next u) (hne : u.ctl ≠ s.ctl ∨ u.xs ≠ s.xs)
    (hd : delayUs u ≠ 0) : u.tcnt = delayUs u * s.params.cycUs - 1 := by
  obtain ⟨-, rfl⟩ := step_next_iff.1 hs
  cases hr : (pinsAt s 0).rst
  · rw [edge_of_no_rst hr] at hne hd ⊢
    exact fsmEdge_enters_timed s hne hd
  · rw [edge_of_rst hr] at hd
    exact absurd rfl hd

/-- R106: in a timed phase no byte is being shifted. -/
theorem Timing.xs_ne_shift {u : State} (ht : Timing u) (h : u.Inv) : u.xs ≠ .shift := by
  rcases ht with hc | ⟨-, hx | hx | hx | hx⟩
  · simp [xs_off_of_ctl h (by simp [hc])]
  all_goals simp [hx]

/-- R101, R163: the machine stays in a timed phase, the bus at rest, for the time of the phase. -/
theorem timed_phase_stays {s u : State} {f i : Nat} (h : s.Inv) (hf : f ≤ s.params.cycUs) (hs : step s = .next u)
    (hne : u.ctl ≠ s.ctl ∨ u.xs ≠ s.xs) (hi : i < delayUs u * f) (hr : NoReset u i) :
    ∃ w, run i u = .next w ∧ w.ctl = u.ctl ∧ w.xs = u.xs ∧ w.csN = u.csN ∧
      w.sclk = s.params.spiMode.cpol ∧ w.mosi = false := by
  have hd : delayUs u ≠ 0 := fun h0 => by simp [h0] at hi
  have hinv := stepKeepsTheInvariant s u h hs
  have ht := timing_of_delayUs hd
  have htimer := step_enters_timed hs hne hd
  have hmul : delayUs u * f ≤ delayUs u * s.params.cycUs := Nat.mul_le_mul_left _ hf
  obtain ⟨hclock, hlevel⟩ := hinv.rest (ht.xs_ne_shift hinv)
  refine ⟨_, run_timing hinv.legal ht i (by omega) hr, elapse_ctl u i, elapse_xs u i, elapse_csN u i, ?_, ?_⟩
  · simpa [(step_outside hs).1] using hclock
  · simpa using hlevel

/-- Settles O48: a delay is at least its microseconds in cycles of the clock, so each bound follows from the one that
counts cycles. -/
theorem delaysMeetTheirMicroseconds : Obligations.DelaysMeetTheirMicroseconds := by
  refine ⟨fun p f x n => phaseUs_le_of_mem_framePhases, fun s u f i => timed_phase_stays, ?_⟩
  intro s f n u v h hf hx hrun hstep hcs hfall
  obtain ⟨hle, hhigh⟩ := selectHighBeforeItFalls s n u v h hx hrun hstep hcs hfall
  have hidle : s.params.tIdleUs * f ≤ s.params.tIdle := Nat.mul_le_mul_left _ hf
  exact ⟨hidle.trans hle, fun i x hlo => hhigh i x (by omega)⟩

end Sys2Proof.Machine

/-! # What a frame sees of `miso` (spec/40_frame_transport.md R104, R105) -/

namespace Sys2Proof.Machine

/-- Settles O5: of the eight bits that are left, the first is at the end where the order begins. -/
theorem eightSamplesFillTheByte : Obligations.EightSamplesFillTheByte := by
  intro b m j hj
  have hmsb := samples_msbFirst_getLsbD b m 8 (i := 7 - j) (by omega)
  have hlsb := samples_lsbFirst_getLsbD b m 8 hj
  rw [if_pos (by omega), show 8 - 1 - (7 - j) = j by omega] at hmsb
  rw [if_pos (by omega), Nat.add_sub_cancel] at hlsb
  exact ⟨hmsb, hlsb⟩

/-! ## Cycles that do not sample (R105) -/

theorem shiftEdge_first_half {s : State} (h0 : s.hcnt = 0) (hph : s.ph = false) : shiftEdge s = leadingEdge s := by
  simp [shiftEdge, h0, hph]

theorem shiftEdge_second_half {s : State} (h0 : s.hcnt = 0) (hph : s.ph = true) : shiftEdge s = trailingEdge s := by
  simp [shiftEdge, h0, hph]

/-- With the script `e` on the pins the edge of `s` samples the same level as with its own, if it samples at all. -/
def SameSample (s : State) (e : List Pins) : Prop :=
  s.ctl = .xfer → s.xs = .shift → s.hcnt = 0 →
    rxAfterHalf s s.ph (misoSynced (s.withEnv e)) = rxAfterHalf s s.ph (misoSynced s)

/-- R105: `miso` is looked at on a sampling edge only, and behind a synchroniser its present level is not. -/
theorem sameSample_of_not_sampling {s : State} (h : ¬ Sampling s ∨ 0 < s.params.syncStages) (e : List Pins) :
    SameSample s e := by
  intro hc hx h0
  rcases h with hn | hsync
  · have hhalf : s.ph ≠ s.params.spiMode.cpha := fun hph => hn ⟨hc, hx, h0, hph⟩
    simp [rxAfterHalf, hhalf]
  · obtain ⟨n, hn⟩ := Nat.exists_eq_succ_of_ne_zero hsync.ne'
    have hflop : ∀ m, (m :: s.msync).getD s.params.syncStages false = s.msync.getD n false := fun m => by
      rw [hn, Nat.succ_eq_add_one, List.getD_cons_succ]
    have hsame : misoSynced (s.withEnv e) = misoSynced s := (hflop _).trans (hflop _).symm
    rw [hsame]

section
variable {s : State} {e : List Pins}

theorem leadingEdge_of_sameSample
    (h : rxAfterHalf s false (misoSynced (s.withEnv e)) = rxAfterHalf s false (misoSynced s)) :
    leadingEdge (s.withEnv e) = (leadingEdge s).withEnv e := by
  have hrx : rxAfterHalf (s.withEnv e) false (misoSynced (s.withEnv e)) = rxAfterHalf s false (misoSynced s) := h
  rw [leadingEdge_eq, leadingEdge_eq, hrx]
  rfl

theorem trailingEdge_of_sameSample
    (h : rxAfterHalf s true (misoSynced (s.withEnv e)) = rxAfterHalf s true (misoSynced s)) :
    trailingEdge (s.withEnv e) = (trailingEdge s).withEnv e := by
  have hrx : rxAfterHalf (s.withEnv e) true (misoSynced (s.withEnv e)) = rxAfterHalf s true (misoSynced s) := h
  have htrailed : trailed (s.withEnv e) = (trailed s).withEnv e := by
    rw [trailed, hrx]
    rfl
  rcases (show s.bitn.toNat < 7 ∨ s.bitn.toNat = 7 by omega) with hb | hb
  · rw [trailingEdge_of_lt hb, trailingEdge_of_lt (s := s.withEnv e) hb, htrailed]
    rfl
  · rw [trailingEdge_of_last hb, trailingEdge_of_last (s := s.withEnv e) hb, htrailed, endByte_withEnv]

theorem shiftEdge_of_sameSample (hc : s.ctl = .xfer) (hx : s.xs = .shift) (h : SameSample s e) :
    shiftEdge (s.withEnv e) = (shiftEdge s).withEnv e := by
  by_cases h0 : s.hcnt = 0
  · have hrx := h hc hx h0
    cases hph : s.ph <;> rw [hph] at hrx
    · rw [shiftEdge_first_half h0 hph, shiftEdge_first_half (s := s.withEnv e) h0 hph,
        leadingEdge_of_sameSample hrx]
    · rw [shiftEdge_second_half h0 hph, shiftEdge_second_half (s := s.withEnv e) h0 hph,
        trailingEdge_of_sameSample hrx]
  · have hcount : (s.withEnv e).hcnt ≠ 0 := h0
    rw [shiftEdge, shiftEdge, if_neg h0, if_neg hcount]
    rfl

theorem transportEdge_of_sameSample (hc : s.ctl = .xfer) (h : SameSample s e) :
    transportEdge (s.withEnv e) = (transportEdge s).withEnv e := by
  have hxs : (s.withEnv e).xs = s.xs := rfl
  cases hx : s.xs <;> simp only [transportEdge, hxs, hx]
  case pre => exact timed_withEnv { s with xs := .setup, csN := false, tcnt := s.params.tSetup - 1 }
  case setup => exact timed_withEnv (beginByte { s with xs := .shift, bidx := 0 } 0)
  case shift => exact shiftEdge_of_sameSample hc hx h
  case gap => exact timed_withEnv (beginByte { s with xs := .shift, bidx := s.bidx + 1 } (s.bidx.toNat + 1))
  case hold =>
    rw [← timed_withEnv, ← frameEnd_withEnv]
    rfl

/-- R31, R70: the request port's action depends on the present request alone. -/
theorem portAction_of_offered (h : offered (s.withEnv e) = offered s) :
    portAction (s.withEnv e) (s.withEnv e) = (portAction s s).withEnv e := by
  unfold portAction
  rw [h]
  rcases offered s with _ | (_ | (_ | n))
  case some.ok.poll => exact acceptPoll_withEnv n
  all_goals rfl

theorem fsmEdge_of_sameSample (hoff : offered (s.withEnv e) = offered s) (h : SameSample s e) :
    fsmEdge (s.withEnv e) (portAction (s.withEnv e)) = (fsmEdge s (portAction s)).withEnv e := by
  have hctl : (s.withEnv e).ctl = s.ctl := rfl
  cases hc : s.ctl <;> simp only [fsmEdge, hctl, hc]
  case idle => exact portAction_of_offered hoff
  case xfer => exact transportEdge_of_sameSample hc h
  case pwait => exact timed_withEnv (startFrame s)
  case resp => rfl

/-- R105: with the same request, the same `rst` and the same later pins, only the synchroniser's flops may differ. -/
theorem edge_of_sameSample (ht : e.tail = s.env.tail) (hrst : (pinsAt (s.withEnv e) 0).rst = (pinsAt s 0).rst)
    (hoff : offered (s.withEnv e) = offered s) (h : SameSample s e) :
    edge (s.withEnv e) (portAction (s.withEnv e)) =
      { edge s (portAction s) with msync := (edge (s.withEnv e) (portAction (s.withEnv e))).msync } := by
  cases hr : (pinsAt s 0).rst
  · have henv : (fsmEdge s (portAction s)).env = s.env := (fsmEdge_outside s).2.1
    rw [edge_of_no_rst hr, edge_of_no_rst (hrst.trans hr), fsmEdge_of_sameSample hoff h]
    simp only [advance, State.withEnv, ht, henv]
  · rw [edge_of_rst hr, edge_of_rst (hrst.trans hr)]
    simp only [advance, resetRegs, State.withEnv, ht]

end

/-- Settles O43: the present level of `miso` enters a register by way of the byte register or the flops only. -/
theorem misoMattersOnlyWhenSampled : Obligations.MisoMattersOnlyWhenSampled := by
  intro s t m hs hsample
  obtain ⟨hl, rfl⟩ := step_next_iff.1 hs
  have hpins := pinsAt_withPins_zero s { pinsAt s 0 with miso := m }
  rw [withPins_eq_withEnv] at hpins ⊢
  refine ⟨_, step_of_legal hl, edge_of_sameSample rfl (by rw [hpins]) ?_ (sameSample_of_not_sampling hsample _)⟩
  unfold offered
  rw [hpins]
  rfl

end Sys2Proof.Machine

/-! # A whole FRAME: its phases, its bits and its answer (spec/40_frame_transport.md R100 to R112) -/

namespace Sys2Proof.Machine

/-! ## Lists of phases (R102) -/

/-- The cycles that a list of phases takes. -/
def phaseCycles (l : List (Xs × Nat)) : Nat := (l.map Prod.snd).sum

@[simp] theorem phaseCycles_nil : phaseCycles [] = 0 := rfl

@[simp] theorem phaseCycles_cons (x : Xs × Nat) (l : List (Xs × Nat)) :
    phaseCycles (x :: l) = x.2 + phaseCycles l := by
  simp [phaseCycles]

@[simp] theorem phaseCycles_append (l m : List (Xs × Nat)) : phaseCycles (l ++ m) = phaseCycles l + phaseCycles m := by
  simp [phaseCycles]

theorem phaseAt_append_left {l : List (Xs × Nat)} (m : List (Xs × Nat)) {i : Nat} (hi : i < phaseCycles l) :
    phaseAt (l ++ m) i = phaseAt l i := by
  induction l generalizing i with
  | nil => simp at hi
  | cons x l ih =>
    rw [phaseCycles_cons] at hi
    rw [List.cons_append, phaseAt, phaseAt]
    split
    · rfl
    · exact ih (by omega)

theorem phaseAt_append_right (l m : List (Xs × Nat)) (i : Nat) :
    phaseAt (l ++ m) (phaseCycles l + i) = phaseAt m i := by
  induction l with
  | nil => simp
  | cons x l ih =>
    have hlate : ¬ x.2 + phaseCycles l + i < x.2 := by omega
    rw [phaseCycles_cons, List.cons_append, phaseAt, if_neg hlate, Nat.add_assoc, Nat.add_sub_cancel_left, ih]

theorem phaseAt_mem {l : List (Xs × Nat)} {i : Nat} (hi : i < phaseCycles l) : ∃ n, (phaseAt l i, n) ∈ l := by
  induction l generalizing i with
  | nil => simp at hi
  | cons x l ih =>
    rw [phaseCycles_cons] at hi
    rw [phaseAt]
    split
    · exact ⟨x.2, List.mem_cons_self⟩
    · obtain ⟨n, hn⟩ := ih (i := i - x.2) (by omega)
      exact ⟨n, List.mem_cons_of_mem _ hn⟩

/-- R102: the phases of byte `k`: its bits, and the gap after it or, after byte 6, the hold. -/
def bytePhases (p : Params) (k : Nat) : List (Xs × Nat) :=
  [(.shift, byteCycles p), if k < 6 then (.gap, p.tGap) else (.hold, p.tHold)]

/-- R102: the phases of a frame before byte `k`. -/
def phasesBefore (p : Params) (k : Nat) : List (Xs × Nat) :=
  [(.pre, p.tIdle), (.setup, p.tSetup)] ++ (List.range k).flatMap (bytePhases p)

theorem framePhases_eq_phasesBefore (p : Params) : framePhases p = phasesBefore p 7 := rfl

theorem phasesBefore_succ (p : Params) (k : Nat) : phasesBefore p (k + 1) = phasesBefore p k ++ bytePhases p k := by
  simp [phasesBefore, List.range_succ]

theorem phaseCycles_phasesBefore (p : Params) {k : Nat} (hk : k ≤ 6) :
    phaseCycles (phasesBefore p k) = byteStart p k := by
  induction k with
  | zero => simp [phasesBefore, byteStart]
  | succ k ih =>
    have hgap : k < 6 := hk
    rw [phasesBefore_succ, phaseCycles_append, ih hgap.le, byteStart_succ]
    simp [bytePhases, hgap, Nat.add_assoc]

theorem phaseCycles_framePhases (p : Params) : phaseCycles (framePhases p) = frameCycles p := by
  rw [framePhases_eq_phasesBefore, phasesBefore_succ, phaseCycles_append, phaseCycles_phasesBefore p (le_refl 6),
    frameCycles_eq]
  simp [bytePhases, Nat.add_assoc]

/-- R102: a frame is in its idle phase exactly in its first `T_IDLE` cycles. -/
theorem phaseAt_framePhases_eq_pre {p : Params} {i : Nat} (hi : i < frameCycles p) :
    phaseAt (framePhases p) i = .pre ↔ i < p.tIdle := by
  have hcons : framePhases p = (.pre, p.tIdle) :: (.setup, p.tSetup) :: (List.range 7).flatMap (bytePhases p) := rfl
  rw [← phaseCycles_framePhases, hcons, phaseCycles_cons] at hi
  rw [hcons, phaseAt]
  split
  · next h => simp [h]
  · next h =>
    obtain ⟨n, hn⟩ := phaseAt_mem (i := i - p.tIdle)
      (l := (.setup, p.tSetup) :: (List.range 7).flatMap (bytePhases p)) (by omega)
    refine iff_of_false (fun hpre => ?_) h
    rw [hpre] at hn
    simp only [List.mem_cons, Prod.mk.injEq, reduceCtorEq, false_and, false_or, List.mem_flatMap, bytePhases,
      List.not_mem_nil, or_false] at hn
    obtain ⟨k, -, hk⟩ := hn
    split at hk <;> simp at hk

/-! ## The phases of a frame, cycle by cycle (R102, R106) -/

/-- Cycle `i` of a frame, counted from `s`, lies in the phase `x`, with `cs_n` as it is in that phase. -/
def InPhase (s : State) (i : Nat) (x : Xs) : Prop :=
  ∃ u, InFrame s i u ∧ u.xs = x ∧ (u.csN = true ↔ x = .pre)

/-- The cycles of a frame from `s` on go through the phases `l`. -/
def Visits (s : State) (l : List (Xs × Nat)) : Prop := ∀ i, i < phaseCycles l → InPhase s i (phaseAt l i)

section
variable {s u v : State} {i j n k : Nat} {x : Xs} {l m : List (Xs × Nat)} {second : Bool} {left : Nat}

theorem InFrame.inPhase (h : InFrame s i u) (hj : InPhase u j x) : InPhase s (i + j) x := by
  obtain ⟨v, hv, hphase⟩ := hj
  exact ⟨v, h.trans hv, hphase⟩

theorem visits_single (h : ∀ i, i < n → InPhase s i x) : Visits s [(x, n)] := by
  intro i hi
  have hin : i < n := by simpa using hi
  rw [phaseAt, if_pos hin]
  exact h i hin

theorem Visits.append (h : Visits s l) (hu : InFrame s (phaseCycles l) u) (hm : Visits u m) : Visits s (l ++ m) := by
  intro i hi
  rw [phaseCycles_append] at hi
  rcases Nat.lt_or_ge i (phaseCycles l) with hil | hil
  · rw [phaseAt_append_left m hil]
    exact h i hil
  · obtain ⟨r, rfl⟩ := Nat.exists_eq_add_of_le hil
    rw [phaseAt_append_right]
    exact hu.inPhase (hm r (by omega))

/-- R103: a timed phase of a frame from its first cycle on. -/
theorem visits_timed (hl : s.params.legal = true) (hc : s.ctl = .xfer)
    (hx : x = .pre ∨ x = .setup ∨ x = .gap ∨ x = .hold) (hsx : s.xs = x) (hcs : s.csN = true ↔ x = .pre)
    (ht : s.tcnt = n - 1) (hr : NoReset s n) : Visits s [(x, n)] := by
  refine visits_single fun i hi => ⟨{ elapse s i with tcnt := s.tcnt - i }, ?_, by simp [hsx], by simp [hcs]⟩
  exact
    { reached := run_timing hl (.inr ⟨hc, by rw [hsx]; exact hx⟩) i (by omega) (hr.mono hi.le)
      command := ⟨rfl, rfl, rfl, rfl, rfl, rfl, rfl⟩
      progress := { elapse_sameProgress s i with } }

/-- R104: the cycles of one half of a bit. -/
theorem InHalf.inPhase (h : InHalf u second left k j) (hi : i ≤ left) (hr : NoReset u i) : InPhase u i .shift := by
  refine ⟨{ elapse u i with hcnt := u.hcnt - i }, ?_, by simp [h.xs], by simp [h.select]⟩
  exact
    { reached := run_half h.legal h.ctl h.xs i (by rwa [h.count]) hr
      command := ⟨rfl, rfl, rfl, rfl, rfl, rfl, rfl⟩
      progress := { elapse_sameProgress u i with } }

/-- R104: the cycles of one bit. -/
theorem InHalf.bit_inPhase (h : InHalf u false (u.params.sclkHalf - 1) k j) (hi : i < 2 * u.params.sclkHalf)
    (hr : NoReset u (2 * u.params.sclkHalf)) : InPhase u i .shift := by
  rcases Nat.lt_or_ge i u.params.sclkHalf with hfirst | hsecond
  · exact h.inPhase (by omega) (hr.mono hi.le)
  · obtain ⟨w, hw, hwhalf, -⟩ := h.lastCycle (hr.mono (by omega))
    have hm := hw.halfTick hwhalf (hr.mono (by omega))
    obtain ⟨r, rfl⟩ := Nat.exists_eq_add_of_le hsecond
    obtain ⟨hmhalf, -⟩ := hwhalf.leading
    rw [hw.params] at hmhalf
    exact hm.inPhase (hmhalf.inPhase (by omega) (hr.after hm.reached hi.le))

/-- R104: the cycles of the eight bits of a byte. -/
theorem InHalf.visits_byte (h : InHalf u false (u.params.sclkHalf - 1) k 0) (hr : NoReset u (byteCycles u.params)) :
    Visits u [(.shift, byteCycles u.params)] := by
  refine visits_single fun i hi => ?_
  have hpos : 0 < 2 * u.params.sclkHalf := by
    have := (legal_clock h.legal).1
    omega
  have hbit : i / (2 * u.params.sclkHalf) < 8 := by
    rw [Nat.div_lt_iff_lt_mul hpos]
    unfold byteCycles at hi
    omega
  have hin := bit_in_byte u.params hbit
  obtain ⟨v, hv, hvbit, -⟩ := h.bits (j := i / (2 * u.params.sclkHalf)) (by omega) (hr.mono (by omega))
  have hphase := hvbit.bit_inPhase (i := i % (2 * u.params.sclkHalf))
    (by rw [hv.params]; exact Nat.mod_lt i hpos) (hr.after hv.reached (by rw [hv.params]; exact hin))
  rw [← Nat.div_add_mod i (2 * u.params.sclkHalf)]
  exact hv.inPhase hphase

/-- R102: the gap after a byte, or the hold after the last. -/
theorem ByteEnds.visits (h : ByteEnds u k) (hr : NoReset u (if k < 6 then u.params.tGap else u.params.tHold)) :
    Visits u [if k < 6 then (.gap, u.params.tGap) else (.hold, u.params.tHold)] := by
  have hxs := h.xs
  have htimer := h.timer
  split_ifs at hxs htimer hr ⊢
  · exact visits_timed h.legal h.ctl (by simp) hxs (by simp [h.select]) htimer hr
  · exact visits_timed h.legal h.ctl (by simp) hxs (by simp [h.select]) htimer hr

/-- R102: byte `k` and the phase after it lie inside the frame. -/
theorem bytePhases_in_frame (p : Params) (hk : k ≤ 6) :
    byteStart p k + byteCycles p + (if k < 6 then p.tGap else p.tHold) ≤ frameCycles p := by
  split
  · next h =>
    have hnext := byte_in_frame p (k := k + 1) h
    rw [byteStart_succ] at hnext
    omega
  · next h =>
    obtain rfl : k = 6 := by omega
    rw [frameCycles_eq]

/-- R102: a frame goes through its phases, byte after byte. -/
theorem FrameBegins.visits_phasesBefore (h : FrameBegins s) (hr : NoReset s (frameCycles s.params)) (hk : k ≤ 7) :
    Visits s (phasesBefore s.params k) := by
  induction k with
  | zero =>
    have hin : s.params.tIdle + s.params.tSetup ≤ frameCycles s.params := by
      unfold frameCycles
      omega
    have hpre : Visits s [(.pre, s.params.tIdle)] :=
      visits_timed h.legal h.ctl (by simp) h.xs (by simp [h.select]) h.timer (hr.mono (by omega))
    obtain ⟨u, hu, husetup, -⟩ := h.setup (hr.mono (by omega))
    have hsetup : Visits u [(.setup, u.params.tSetup)] :=
      visits_timed husetup.legal husetup.ctl (by simp) husetup.xs (by simp [husetup.select]) husetup.timer
        (hr.after hu.reached (by rw [hu.params]; exact hin))
    rw [hu.params] at hsetup
    exact hpre.append (by simpa using hu) hsetup
  | succ k ih =>
    have hk6 : k ≤ 6 := by omega
    have hin := bytePhases_in_frame s.params hk6
    obtain ⟨u, hu, hubyte, huacc⟩ := h.byteBegins hk6 (hr.mono (by omega))
    obtain ⟨v, hv, hvend, -⟩ := hubyte.wholeByte (hr.after hu.reached (by rw [hu.params]; omega))
    have hpv : v.params = s.params := hv.params.trans hu.params
    have hbits := hubyte.visits_byte (hr.after hu.reached (by rw [hu.params]; omega))
    have hend := hvend.visits (hr.after (hu.trans hv).reached (by rw [hpv, hu.params]; exact hin))
    have hbyte := hbits.append (by simpa using hv) hend
    rw [hpv, hu.params] at hbyte
    rw [phasesBefore_succ]
    exact (ih (by omega)).append (by rwa [phaseCycles_phasesBefore _ hk6]) hbyte

/-- R102, R112: every cycle of a frame is in the phase that the table gives. -/
theorem FrameBegins.visits (h : FrameBegins s) (hr : NoReset s (frameCycles s.params)) :
    Visits s (framePhases s.params) :=
  h.visits_phasesBefore hr (le_refl 7)

/-- R102, R106: a cycle of a frame: its phase, and `cs_n` low after the idle phase. -/
theorem FrameBegins.cycle (h : FrameBegins s) (hr : NoReset s (frameCycles s.params)) (hi : i < frameCycles s.params) :
    ∃ u, InFrame s i u ∧ u.ctl = .xfer ∧ u.xs = phaseAt (framePhases s.params) i ∧
      (u.csN = false ↔ s.params.tIdle ≤ i) := by
  obtain ⟨u, hu, hxs, hcs⟩ := h.visits hr i (by rwa [phaseCycles_framePhases])
  rw [phaseAt_framePhases_eq_pre hi] at hcs
  exact ⟨u, hu, hu.progress.ctl.trans h.ctl, hxs, by rw [← Bool.not_eq_true, hcs, Nat.not_lt]⟩

end

/-! ## The acceptance of a FRAME -/

/-- The machine after the accept edge of a FRAME. -/
def frameAccepted (op : Byte) (a : Addr) (d : Word32) (s : State) : State :=
  advance { acceptFrame op a d s with msync := nextSync s }

section
variable {s : State} (op : Byte) (a : Addr) (d : Word32)

theorem exec_frame_ready (hs : Ready s) : exec (.frame op a d) s = .next (frameAccepted op a d s) :=
  (exec_frame op a d s).trans (clock_ready hs _)

theorem frameAccepted_begins (hs : Ready s) : FrameBegins (frameAccepted op a d s) := by
  obtain ⟨hl, -, -⟩ := hs
  exact ⟨hl, rfl, rfl, rfl, rfl⟩

theorem misoAt_frameAccepted (k : Nat) : misoAt (frameAccepted op a d s) k = misoAt s (1 + k) := by
  rw [Nat.add_comm]
  exact misoAt_advance _ k

theorem frameAccepted_noReset {n : Nat} (h : NoReset s (n + 1)) :
    NoReset (frameAccepted op a d s) n := by
  intro i hi
  rw [frameAccepted, pinsAt_advance]
  exact h (i + 1) (Nat.succ_lt_succ hi)

theorem frameAccepted_inv (h : s.Inv) (hs : Ready s) : (frameAccepted op a d s).Inv := by
  obtain ⟨-, hc, -⟩ := hs
  exact advance_inv (loadCommand_inv h hc (Nat.two_pow_pos _) (fun _ => rfl) (by simp)) (nextSync_length h)

end

/-! ## The end of a frame -/

/-- R104, R105: a byte depends on the levels of `miso` in its own cycles, whenever it is looked at. -/
theorem receivedByte_of_later {s u : State} (hl : s.params.legal = true) {i : Nat} (hp : u.params = s.params)
    (hmiso : ∀ k, misoAt u k = misoAt s (i + k)) (start k : Nat) :
    receivedByte u start k = receivedByte s (i + start) k := by
  have hsync := syncStages_le_bitSample hl
  have hlevel : ∀ j, misoAt u (start + sampleCycle s.params k j - s.params.syncStages) =
      misoAt s (i + start + sampleCycle s.params k j - s.params.syncStages) := fun j => by
    rw [hmiso, sampleCycle_eq hl]
    congr 1
    omega
  simp only [receivedByte, hp, hlevel]

/-- R105: what the flops hold depends on the levels of `miso`, whenever it is looked at. -/
theorem syncAfter_of_later {s u : State} {i m : Nat} (hp : u.params = s.params)
    (hmiso : ∀ k, misoAt u k = misoAt s (i + k)) (hm : s.params.syncStages ≤ m + 1) :
    syncAfter u m = syncAfter s (i + m) := by
  unfold syncAfter
  rw [hp]
  refine List.map_congr_left fun j hj => ?_
  rw [hmiso, ← Nat.add_sub_assoc (by rw [List.mem_range] at hj; omega)]

/-- R105, R112: a frame is longer than the synchroniser is deep. -/
theorem syncStages_lt_frameCycles {p : Params} (hl : p.legal = true) : p.syncStages < frameCycles p := by
  obtain ⟨hpos, hsync⟩ := legal_clock hl
  unfold frameCycles
  omega

section
variable {t v : State}

/-- R105: the flops at the end of a frame hold the last levels of `miso`. -/
theorem FrameEnds.nextSync_eq (h : FrameEnds t v) :
    nextSync v = syncAfter t (frameCycles t.params - 1) := by
  have hlong := syncStages_lt_frameCycles (h.frame.params ▸ h.legal)
  have hpos : 0 < frameCycles t.params := Nat.zero_lt_of_lt hlong
  have hlast : nextSync v = (elapse t (frameCycles t.params - 1 + 1)).msync := h.frame.command.nextSync
  rw [hlast, Nat.sub_add_cancel hpos, elapse_msync t _ hpos hlong.le]
  rfl

/-- R103, R106: what every frame leaves behind, whoever asked for it. -/
theorem FrameEnds.rest (h : FrameEnds t v) :
    advance { v with xs := .off, csN := true, msync := nextSync v } =
      { frameDone t 0 (frameCycles t.params - 1) with ctl := .xfer } := by
  obtain ⟨-, command, progress⟩ := h.frame
  have hparams := h.frame.params
  have hkind : v.kind = t.kind := command.kind.trans (elapse_kind _ _)
  have hnmax : v.nmax = t.nmax := command.nmax.trans (elapse_nmax _ _)
  have henv : v.env = t.env.drop (frameCycles t.params - 1) := command.env.trans (elapse_env _ _)
  have hcycle : v.cycle = t.cycle + (frameCycles t.params - 1) := command.cycle.trans (elapse_cycle _ _)
  have hbyte : v.bidx = 6 := BitVec.eq_of_toNat_eq h.byte
  have hbit : v.bitn = 7 := BitVec.eq_of_toNat_eq h.bit
  simp only [advance, frameDone, State.mk.injEq]
  simp [h.nextSync_eq, hparams, hkind, hnmax, henv, hcycle, hbyte, hbit, h.ctl, h.frame.frm, progress.att, h.timer,
    h.count, h.half, h.received, h.word, progress.rsp, progress.stRaw, progress.st, h.clock, h.level, List.tail_drop]

/-- R100, R103: a FRAME is answered with the word that it received. -/
theorem FrameEnds.answer (h : FrameEnds t v) (hk : t.kind = .frame) (hr : NoReset t (frameCycles t.params)) :
    run (frameCycles t.params) t =
      .next { frameDone t 0 (frameCycles t.params - 1) with rsp := ⟨frameWord t 0, false, 0, false⟩ } := by
  have hkind : v.kind = .frame := (h.frame.command.kind.trans (elapse_kind _ _)).trans hk
  rw [h.run_eq hr, frameEnd_frame (s := { v with xs := .off, csN := true }) hkind]
  exact congrArg (fun w => Host.Outcome.next (respond w (frameWord t 0) false 0 false)) h.rest

end

section
variable {s : State} (op : Byte) (a : Addr) (d : Word32)

/-- R107: what a FRAME leaves, as a function of the levels of `miso` after its acceptance. -/
theorem frameDone_frameAccepted (hs : Ready s) :
    frameDone (frameAccepted op a d s) 0 (frameCycles s.params - 1) =
      { frameDone s 1 (frameCycles s.params) with
        kind := .frame, frm := wireFrame op a d, nmax := 0, att := 0 } := by
  obtain ⟨hl, -, -⟩ := hs
  have hlong := syncStages_lt_frameCycles hl
  have hlast : 1 + (frameCycles s.params - 1) = frameCycles s.params := by omega
  have hbyte := receivedByte_of_later (s := s) (u := frameAccepted op a d s) hl rfl (misoAt_frameAccepted op a d) 0 6
  have hword := frameWord_of_later (s := s) (u := frameAccepted op a d s) hl rfl (misoAt_frameAccepted op a d) 0
  have hsync := syncAfter_of_later (s := s) (u := frameAccepted op a d s) (m := frameCycles s.params - 1) rfl
    (misoAt_frameAccepted op a d) (by omega)
  rw [hlast] at hsync
  simp only [frameDone, hbyte, hword, hsync, State.mk.injEq]
  simp [frameAccepted, acceptFrame]
  omega

/-- R107, R112: a FRAME from its acceptance to its response. -/
theorem frame_answered (hs : Ready s) (hr : NoReset s (frameCycles s.params + 1)) :
    run (frameCycles s.params) (frameAccepted op a d s) =
      .next { frameDone s 1 (frameCycles s.params) with
        kind := .frame, frm := wireFrame op a d, nmax := 0, att := 0
        rsp := ⟨frameWord s 1, false, 0, false⟩ } := by
  have hacc : NoReset (frameAccepted op a d s) (frameCycles s.params) := frameAccepted_noReset op a d hr
  obtain ⟨v, hv⟩ := (frameAccepted_begins op a d hs).lastCycle hacc
  have hrun := hv.answer rfl hacc
  have hword : frameWord (frameAccepted op a d s) 0 = frameWord s 1 :=
    frameWord_of_later (s := s) (u := frameAccepted op a d s) hs.1 rfl (misoAt_frameAccepted op a d) 0
  rw [hword] at hrun
  exact hrun.trans (congrArg (fun w : State => Host.Outcome.next { w with rsp := ⟨frameWord s 1, false, 0, false⟩ })
    (frameDone_frameAccepted op a d hs))

end

/-! ## The obligations -/

/-- R29, R31: the cycle after a response is a ready one. -/
theorem step_of_resp {s : State} (hl : s.params.legal = true) (hc : s.ctl = .resp) (hr : (pinsAt s 0).rst = false) :
    step s = .next (advance { s with ctl := .idle, msync := nextSync s }) := by
  rw [step_busy hl hr (by simp [hc]), fsmEdge_resp hc]

/-- R29, R31: the two cycles that end a command without reset: the response, and the ready cycle after it. -/
theorem response_then_ready {s : State} (hr : NoReset s 2) (hl : s.params.legal = true) (hc : s.ctl = .resp) :
    rspValid s = true ∧ ∃ v, step s = .next v ∧ rspValid v = false ∧ reqReady v = true ∧ v.rsp = s.rsp ∧
      v.st = s.st ∧ v.stRaw = s.stRaw := by
  have hnow : (pinsAt s 0).rst = false := hr 0 (by decide)
  have hnext : (pinsAt s 1).rst = false := hr 1 (by decide)
  refine ⟨(rspValid_iff s).2 ⟨hc, hnow⟩, _, step_of_resp hl hc hnow, rfl, ?_, rfl, rfl, rfl⟩
  rw [reqReady_iff, pinsAt_advance]
  exact ⟨rfl, hnext⟩

/-- Settles O22: the last cycle of the frame holds the received word, and `C_RESP` follows it. -/
theorem frameAnswersTheReceivedBytes : Obligations.FrameAnswersTheReceivedBytes := by
  intro s op a d hs hr
  have hrun := frame_answered op a d hs (hr.mono (by omega))
  have hrest := (frameAccepted_noReset op a d hr).after (k := 2) hrun (le_refl _)
  obtain ⟨hvalid, v, hv, hgone, hready, hrsp, hst, hraw⟩ := response_then_ready hrest hs.1 rfl
  exact ⟨_, _, v, exec_frame_ready op a d hs, hrun, rfl, hvalid, hv, hgone, hready, hrsp, hst, hraw⟩

/-- Settles O23: the phases of a frame, and after them the response and a ready machine. -/
theorem frameKeepsItsSchedule : Obligations.FrameKeepsItsSchedule := by
  intro s op a d h hs hr
  have hrt : NoReset (frameAccepted op a d s) (frameCycles s.params) :=
    frameAccepted_noReset op a d (hr.mono (by omega))
  refine ⟨_, exec_frame_ready op a d hs, fun i hi => ?_, ?_, rfl, ?_, by decide, by decide⟩
  · obtain ⟨u, hu, hctl, hxs, hcs⟩ := (frameAccepted_begins op a d hs).cycle hrt hi
    have hinv := run_inv (frameAccepted_inv op a d h hs) hu.reached
    have hpu : u.params = s.params := hu.params
    refine ⟨u, hu.reached, hctl, hxs, hinv.xfer.1 hctl, hcs, ?_, by simp [rspValid, hctl], by simp [reqReady, hctl]⟩
    rw [← hpu]
    exact hinv.rest
  · obtain ⟨t, u, v, ht, hrun, hu, hvalid, hv, -, hready, -⟩ := frameAnswersTheReceivedBytes s op a d hs hr
    obtain rfl : frameAccepted op a d s = t := by simpa [exec_frame_ready op a d hs] using ht
    exact ⟨u, v, hrun, hvalid, by rw [hu]; rfl, hv, hready⟩
  · unfold frameCycles
    omega

/-- R104: a sampling cycle lies inside its frame. -/
theorem sampleCycle_lt_frameCycles {p : Params} (hl : p.legal = true) {k j : Nat} (hk : k < 7) (hj : j < 8) :
    sampleCycle p k j < frameCycles p := by
  have hpos : 1 ≤ p.sclkHalf := (legal_clock hl).1
  have hbyte := byte_in_frame p (k := k) (by omega)
  have hbit := bit_in_byte p hj
  have hsample : bitSample p < 2 * p.sclkHalf := by
    unfold bitSample
    split <;> omega
  rw [sampleCycle_eq hl]
  omega

/-- R104: every edge of the serial clock inverts it: a leading edge leaves the idle level, a trailing one returns. -/
theorem shiftEdge_sclk {s : State} (h0 : s.hcnt = 0) (hs : s.sclk = (s.ph ^^ s.params.spiMode.cpol)) :
    (shiftEdge s).sclk = !s.sclk := by
  cases hph : s.ph <;> rw [hph] at hs
  · rw [shiftEdge_first_half h0 hph, leadingEdge_eq]
    simp [hs]
  · rw [shiftEdge_second_half h0 hph]
    rcases trailingEdge_cases s with ⟨-, e⟩ | ⟨-, e⟩ <;> rw [e]
    · simp [hs]
    · rw [endByte_eq]
      simp [hs]

/-- Settles O24: the bits of the loaded frame; the invariant gives the serial clock in the half that samples. -/
theorem frameSendsItsBits : Obligations.FrameSendsItsBits := by
  intro s op a d k j h hs hr hk hj
  have hrt : NoReset (frameAccepted op a d s) (frameCycles s.params) := frameAccepted_noReset op a d hr
  obtain ⟨u, hu, hsample, hbyte, hbit, hcs, hlevel⟩ :=
    (frameAccepted_begins op a d hs).sampling hk hj hrt
  have hlt := sampleCycle_lt_frameCycles hs.1 hk hj
  have hinv := run_inv (frameAccepted_inv op a d h hs) hu.reached
  have hpu : u.params = s.params := hu.params
  obtain ⟨hc, hx, h0, hph⟩ := id hsample
  have hclock := hinv.clockHalf hx
  have hnow : (pinsAt u 0).rst = false := hrt.after hu.reached (k := 1) hlt 0 Nat.one_pos
  refine ⟨_, u, _, exec_frame_ready op a d hs, hu.reached, step_eq_frameTick hinv.legal hc hnow, hsample,
    hbyte, hbit, hlevel, hcs, ?_, ?_⟩
  · rw [hclock, hph, hpu, Bool.xor_comm]
  · have hedge : transportEdge u = shiftEdge u := by simp only [transportEdge, hx]
    rw [frameTick, hedge]
    exact shiftEdge_sclk h0 hclock

/-- Settles O25: the cycles of a frame leave the status as it is, and so does the response of a FRAME. -/
theorem frameNeverWritesStatus : Obligations.FrameNeverWritesStatus := by
  intro s op a d i hs hr hi
  rcases Nat.eq_or_lt_of_le hi with rfl | hlt
  · exact ⟨_, _, exec_frame_ready op a d hs, frame_answered op a d hs hr, rfl, rfl⟩
  · obtain ⟨u, hu, -⟩ :=
      (frameAccepted_begins op a d hs).cycle (frameAccepted_noReset op a d hr) hlt
    exact ⟨_, u, exec_frame_ready op a d hs, hu.reached, hu.progress.stRaw, hu.progress.st⟩

end Sys2Proof.Machine

/-! # The status decoder (spec/41_status_decoder.md) -/

namespace Sys2Proof.Machine

/-! ## The outputs of DECODE, one equation for each field (R140) -/

section
variable (p : Params) (w : Word32)

@[simp] theorem decodeStatus_done : (decodeStatus p w).done = w.getLsbD p.pDone := rfl
@[simp] theorem decodeStatus_measDone : (decodeStatus p w).measDone = w.getLsbD p.pMeasDone := rfl
@[simp] theorem decodeStatus_fifoErr : (decodeStatus p w).fifoErr = w.getLsbD p.pFifoErr := rfl
@[simp] theorem decodeStatus_fifoDepth : (decodeStatus p w).fifoDepth = w.extractLsb' p.lDepth 8 := rfl
@[simp] theorem decodeStatus_error :
    (decodeStatus p w).error = (w.getLsbD p.pDone && w.getLsbD p.pError) := rfl
@[simp] theorem decodeStatus_warning :
    (decodeStatus p w).warning = (w.getLsbD p.pDone && w.getLsbD p.pWarning) := rfl

end

/-- R143: while done is 0 the code is 0. -/
theorem code_of_not_done {p : Params} {w : Word32} (hd : w.getLsbD p.pDone = false) :
    (decodeStatus p w).code = 0 := by
  simp [decodeStatus, hd]

/-- R143: bit by bit, the code is its field gated by done. -/
theorem code_getLsbD (p : Params) (w : Word32) (i : Nat) : (decodeStatus p w).code.getLsbD i =
    (decide (i < 16) && w.getLsbD p.pDone && w.getLsbD (p.lCode + i)) := by
  cases hd : w.getLsbD p.pDone
  · simp [code_of_not_done hd]
  · by_cases hi : i < 16
    · rw [code_getLsbD_of_done hd hi]
      simp [hi]
    · rw [BitVec.getLsbD_of_ge _ _ (Nat.not_lt.1 hi)]
      simp [hi]

/-- R145: the base error code is `code[3:0]`. -/
theorem errBase_getLsbD (s : Status) (i : Nat) :
    s.errBase.getLsbD i = (decide (i < 4) && s.code.getLsbD i) := by
  simp [Status.errBase]

/-- R145: the higher-order error flags are `code[10:4]`. -/
theorem errFlags_getLsbD (s : Status) (i : Nat) :
    s.errFlags.getLsbD i = (decide (i < 7) && s.code.getLsbD (4 + i)) := by
  simp [Status.errFlags]

/-- R145: a code of 0 has both sub-fields 0. -/
theorem subfields_of_code_zero {s : Status} (h : s.code = 0) : s.errBase = 0 ∧ s.errFlags = 0 := by
  simp [Status.errBase, Status.errFlags, h]

/-! ## The word of all ones (R140) -/

/-- A status field of a legal layout lies inside the word, so in the word of all ones it is all ones. -/
theorem statusField_allOnes {p : Params} (h : p.legal = true) {f : Nat × Nat} (hf : f ∈ p.statusFields) :
    (BitVec.allOnes 32).extractLsb' f.1 f.2 = BitVec.allOnes f.2 := by
  have hinside : f.1 + f.2 ≤ 32 := (legal_fields h).1 f hf
  ext i hi
  rw [BitVec.getElem_extractLsb', BitVec.getLsbD_allOnes, BitVec.getElem_allOnes, decide_eq_true_eq]
  omega

/-- The one bit of a status flag of a legal layout is 1 in the word of all ones. -/
theorem statusFlag_allOnes {p : Params} (h : p.legal = true) {b : Nat} (hb : (b, 1) ∈ p.statusFields) :
    (BitVec.allOnes 32).getLsbD b = true := by
  have hinside : b + 1 ≤ 32 := (legal_fields h).1 (b, 1) hb
  rw [BitVec.getLsbD_allOnes, decide_eq_true_eq]
  omega

theorem decodeStatus_allOnes {p : Params} (h : p.legal = true) : decodeStatus p (BitVec.allOnes 32) =
    ⟨true, true, true, true, true, BitVec.allOnes 8, BitVec.allOnes 16⟩ := by
  have hdepth : (BitVec.allOnes 32).extractLsb' p.lDepth 8 = BitVec.allOnes 8 :=
    statusField_allOnes h (f := (p.lDepth, 8)) (by simp [Params.statusFields])
  have hcode : (BitVec.allOnes 32).extractLsb' p.lCode 16 = BitVec.allOnes 16 :=
    statusField_allOnes h (f := (p.lCode, 16)) (by simp [Params.statusFields])
  have hflag : ∀ b, (b, 1) ∈ p.statusFields → (BitVec.allOnes 32).getLsbD b = true := fun _ => statusFlag_allOnes h
  simp only [decodeStatus, hdepth, hcode, hflag p.pDone (by simp [Params.statusFields]),
    hflag p.pMeasDone (by simp [Params.statusFields]), hflag p.pError (by simp [Params.statusFields]),
    hflag p.pWarning (by simp [Params.statusFields]), hflag p.pFifoErr (by simp [Params.statusFields])]
  rfl

/-! ## The decoder port (R147) -/

/-- R28, R220: reset clears the flops of the synchroniser, and any other edge moves them on. -/
theorem edge_msync (s : State) (a : State → State) : (edge s a).msync =
    if (pinsAt s 0).rst then List.replicate s.params.syncStages false else nextSync s := by
  unfold edge
  split <;> rfl

/-- R11: of the present pins an edge sees `rst`, `miso` and the request, and no other. -/
theorem edge_of_same_inputs {s : State} {e : List Pins} (ht : e.tail = s.env.tail)
    (hrst : (pinsAt (s.withEnv e) 0).rst = (pinsAt s 0).rst) (hmiso : misoAt (s.withEnv e) 0 = misoAt s 0)
    (hoff : offered (s.withEnv e) = offered s) :
    edge (s.withEnv e) (portAction (s.withEnv e)) = edge s (portAction s) := by
  have hsample : SameSample s e := fun _ _ _ => by rw [misoSynced_withEnv hmiso]
  have hflops : (edge (s.withEnv e) (portAction (s.withEnv e))).msync = (edge s (portAction s)).msync := by
    rw [edge_msync, edge_msync, hrst, nextSync_withEnv hmiso]
    rfl
  exact (edge_of_sameSample ht hrst hoff hsample).trans (by rw [hflops])

theorem step_of_same_inputs {s : State} {e : List Pins} (ht : e.tail = s.env.tail)
    (hrst : (pinsAt (s.withEnv e) 0).rst = (pinsAt s 0).rst) (hmiso : misoAt (s.withEnv e) 0 = misoAt s 0)
    (hoff : offered (s.withEnv e) = offered s) : step (s.withEnv e) = step s := by
  rw [step_eq_clock, step_eq_clock s, clock, clock, edge_of_same_inputs ht hrst hmiso hoff]
  rfl

/-- R147: no step looks at `dec_in`. -/
theorem step_withPins_decIn (s : State) (w : Word32) :
    step (s.withPins { pinsAt s 0 with decIn := w }) = step s :=
  step_of_same_inputs rfl rfl rfl rfl

/-- R147: the decoder port decodes the present level of `dec_in`. -/
theorem decPort_withPins (s : State) (p : Pins) : decPort (s.withPins p) = decodeStatus s.params p.decIn := by
  rw [decPort, pinsAt_withPins_zero, withPins_params]

/-! ## The obligations -/

/-- Settles O7. -/
theorem statusDoneIsTheDoneBit : Obligations.StatusDoneIsTheDoneBit := decodeStatus_done

/-- Settles O9: the code is 0, so its two sub-fields are; no other gate is there. -/
theorem statusGatedWhileNotDone : Obligations.StatusGatedWhileNotDone := by
  intro p w hd
  have hcode : (decodeStatus p w).code = 0 := code_of_not_done hd
  obtain ⟨hbase, hflags⟩ := subfields_of_code_zero hcode
  exact ⟨by simp [hd], by simp [hd], hcode, hbase, hflags,
    decodeStatus_measDone p w, decodeStatus_fifoErr p w, decodeStatus_fifoDepth p w⟩

/-- Settles O8: the equations of the fields, the two extreme words in every layout, and the worked example evaluated. -/
theorem statusFieldsBitByBit : Obligations.StatusFieldsBitByBit := by
  refine ⟨fun p w i => ?_, decodeStatus_zero, fun _ hp => decodeStatus_allOnes hp, by decide, by decide, by decide⟩
  have hdepth : (decodeStatus p w).fifoDepth.getLsbD i = (decide (i < 8) && w.getLsbD (p.lDepth + i)) := by simp
  exact ⟨decodeStatus_done p w, decodeStatus_measDone p w, decodeStatus_fifoErr p w, hdepth, decodeStatus_error p w,
    decodeStatus_warning p w, code_getLsbD p w i, errBase_getLsbD _ i, errFlags_getLsbD _ i⟩

/-- Settles O44: the port is a function of the present `dec_in`, which no step looks at. -/
theorem decoderPortHasNoState : Obligations.DecoderPortHasNoState := by
  intro s w
  have hport : decPort (s.withPins { pinsAt s 0 with decIn := w }) = decodeStatus s.params w := decPort_withPins s _
  exact ⟨hport, congrArg Status.errBase hport, congrArg Status.errFlags hport, step_withPins_decIn s w⟩

end Sys2Proof.Machine

/-! # A whole POLL: its loop, its attempts and its answer (spec/42_poll_fsm.md R160 to R174) -/

namespace Sys2Proof.Machine

/-! ## The budget 0 (R167) -/

/-- Settles O20: the count field of 0 is 0, so the edge of a ready machine is the illegal response. -/
theorem pollZeroIsIllegal : Obligations.PollZeroIsIllegal := by
  intro s hs
  have hcount : countOperand s.params 0 = 0 := Nat.zero_mod _
  rw [exec_poll, clock_ready hs, acceptPoll_zero hcount]
  rfl

/-! ## The loop at the command level (R160) -/

/-- R161, R168: the loop makes its first attempt, stops on done or at the end of its budget, and returns the
last word. -/
theorem pollLoop_last (p : Params) (w : Nat → Word32) (left a : Nat) :
    a ≤ (pollLoop p w left a).attempts ∧
      ((decodeStatus p (w (pollLoop p w left a).attempts)).done = true ∨
        (pollLoop p w left a).attempts = a + left) ∧
      (pollLoop p w left a).word = w (pollLoop p w left a).attempts ∧
      (pollLoop p w left a).done = (decodeStatus p (w (pollLoop p w left a).attempts)).done := by
  induction left generalizing a with
  | zero => exact ⟨le_refl a, .inr rfl, rfl, rfl⟩
  | succ left ih =>
    rw [pollLoop]
    split
    · next hdone => exact ⟨le_refl a, .inl hdone, rfl, hdone.symm⟩
    · obtain ⟨hge, hstop, hword, hlast⟩ := ih (a + 1)
      exact ⟨by omega, hstop.imp_right fun h => by omega, hword, hlast⟩

/-- Settles O29: `POLL n` is the loop at attempt 1 with `n - 1` further attempts in the budget. -/
theorem pollLoopStopsAtDoneOrBudget : Obligations.PollLoopStopsAtDoneOrBudget := by
  intro p w n hn
  obtain ⟨hle, hbefore⟩ := pollLoop_spec p w (n - 1) 1
  obtain ⟨hge, hstop, hword, hdone⟩ := pollLoop_last p w (n - 1) 1
  rw [Nat.add_sub_cancel' hn] at hle hstop
  exact ⟨hge, hle, hbefore, hstop, hword, hdone⟩

/-- R168: `min(k, n)` attempts, `k` the first whose word shows done. -/
theorem pollOutcome_attempts (s : State) {n : Nat} (hn : 1 ≤ n) :
    1 ≤ (pollOutcome s n).attempts ∧ (pollOutcome s n).attempts ≤ n ∧
      (∀ i, 1 ≤ i → i < (pollOutcome s n).attempts → (decodeStatus s.params (attemptWord s i)).done = false) ∧
      ((decodeStatus s.params (attemptWord s (pollOutcome s n).attempts)).done = true ∨
        (pollOutcome s n).attempts = n) := by
  obtain ⟨hge, hle, hbefore, hstop, -⟩ := pollLoopStopsAtDoneOrBudget s.params (attemptWord s) n hn
  exact ⟨hge, hle, hbefore, hstop⟩

/-! ## The edge that ends an attempt (R164, R171) -/

/-- The status and the response of a POLL whose last attempt, the `a`-th, received the word `w`. -/
def attemptAnswered (s : State) (w : Word32) (a : Nat) : State :=
  { writeStatus s w with att := a, ctl := .resp, rsp := ⟨w, (decodeStatus s.params w).done, a, false⟩ }

section
variable {s t : State}

theorem pollAttemptEnd_answers {w : Word32} (h : (decodeStatus s.params w).done = true ∨ nextAttempt s = s.nmax) :
    pollAttemptEnd s w = attemptAnswered s w (nextAttempt s) := by
  rcases pollAttemptEnd_cases s w with ⟨-, e⟩ | ⟨hdone, hmore, -⟩
  · exact e
  · exact absurd h (not_or.2 ⟨Bool.eq_false_iff.1 hdone, hmore⟩)

theorem pollAttemptEnd_waits {w : Word32} (h : ¬ ((decodeStatus s.params w).done = true ∨ nextAttempt s = s.nmax)) :
    pollAttemptEnd s w =
      { writeStatus s w with att := nextAttempt s, ctl := .pwait, tcnt := s.params.tPoll - 1 } := by
  rcases pollAttemptEnd_cases s w with ⟨hend, -⟩ | ⟨-, -, e⟩
  · exact absurd hend h
  · exact e

theorem AttemptEnds.step_eq (h : AttemptEnds s) (hl : s.params.legal = true) (hr : (pinsAt s 0).rst = false) :
    step s = .next (advance { pollAttemptEnd { s with xs := .off, csN := true } s.rxacc with
      msync := nextSync s }) := by
  obtain ⟨hc, hx, h0, hk⟩ := h
  rw [step_eq_frameTick hl hc hr, ← frameEnd_poll (s := { s with xs := .off, csN := true }) hk]
  simp only [frameTick, transportEdge, hx, timed_zero h0]

/-- Settles O32: the edge is the end of an attempt, which answers the POLL or begins the wait. -/
theorem everyAttemptWritesStatusThrough : Obligations.EveryAttemptWritesStatusThrough := by
  intro s hl hr h
  refine ⟨_, h.step_eq hl hr, ?_⟩
  by_cases hend : (decodeStatus s.params s.rxacc).done = true ∨ nextAttempt s = s.nmax
  · rw [pollAttemptEnd_answers (s := { s with xs := .off, csN := true }) hend]
    exact ⟨rfl, rfl, rfl, rfl, rfl, fun _ => ⟨rfl, rfl⟩,
      fun ⟨hdone, hmore⟩ => absurd hend (not_or.2 ⟨Bool.eq_false_iff.1 hdone, hmore⟩)⟩
  · rw [pollAttemptEnd_waits (s := { s with xs := .off, csN := true }) hend]
    exact ⟨rfl, rfl, rfl, rfl, rfl, fun h => absurd h hend, fun _ => ⟨rfl, rfl, rfl⟩⟩

/-- Settles O37: in a frame of a POLL the counter is below the budget, which fits the same `CNT_W` bits. -/
theorem attemptCounterNeverWraps : Obligations.AttemptCounterNeverWraps := by
  intro s t h hs hr hend
  obtain ⟨t', ht', -, -, hatt, -⟩ := everyAttemptWritesStatusThrough s h.legal hr hend
  obtain rfl : t = t' := by simpa [hs] using ht'
  obtain ⟨hc, hx, -, hk⟩ := hend
  have hlt : s.att < s.nmax := att_lt_of_frame h hk (by simp [hx])
  have hrise : t.att = s.att + 1 := hatt.trans (nextAttempt_eq h hlt)
  obtain ⟨-, -, hnmax, -⟩ := commandRegistersHeld s t hs hr (by simp [hc])
  exact ⟨hrise, by omega⟩

end

/-! ## The outside world of a later cycle -/

/-- `u` has the parameters of `s` and its outside world, `i` cycles later; its registers may be any. -/
structure OutsideAfter (s : State) (i : Nat) (u : State) : Prop where
  params : u.params = s.params
  env : u.env = s.env.drop i
  cycle : u.cycle = s.cycle + i

section
variable {s t u : State} {i j m : Nat}

theorem OutsideAfter.run (h : OutsideAfter s i t) (hrun : Machine.run j t = .next u) : OutsideAfter s (i + j) u := by
  obtain ⟨hparams, henv, hcycle⟩ := run_outside hrun
  exact ⟨hparams.trans h.params, by rw [henv, h.env, List.drop_drop], by rw [hcycle, h.cycle, Nat.add_assoc]⟩

theorem OutsideAfter.pinsAt (h : OutsideAfter s i u) (k : Nat) : pinsAt u k = Machine.pinsAt s (i + k) := by
  rw [pinsAt_congr (s := elapse s i) (by simp [h.env]), pinsAt_elapse]

theorem OutsideAfter.misoAt (h : OutsideAfter s i u) (k : Nat) : misoAt u k = Machine.misoAt s (i + k) := by
  rw [misoAt_congr (s := elapse s i) (by simp [h.env]) (by simp [h.cycle]), misoAt_elapse]

theorem OutsideAfter.noReset {n k : Nat} (h : OutsideAfter s i u) (hr : NoReset s n) (hk : i + k ≤ n) :
    NoReset u k := by
  intro x hx
  rw [h.pinsAt]
  exact hr (i + x) (by omega)

theorem OutsideAfter.frameWord (h : OutsideAfter s i u) (hl : s.params.legal = true) :
    frameWord u 0 = Machine.frameWord s i :=
  frameWord_of_later hl h.params h.misoAt 0

/-- R163: the word of an attempt that begins in a later cycle. -/
theorem OutsideAfter.attemptWord {a : Nat} (h : OutsideAfter s (1 + a * attemptPitch s.params) u)
    (hl : s.params.legal = true) : Machine.frameWord u 0 = Machine.attemptWord s (a + 1) := by
  rw [h.frameWord hl, Machine.attemptWord, Nat.add_sub_cancel]

/-- R107: what a frame leaves is a function of the levels of `miso` and of the registers that it does not write. -/
theorem OutsideAfter.frameDone (h : OutsideAfter s i u) (hl : s.params.legal = true)
    (hm : s.params.syncStages ≤ m + 1) :
    frameDone u 0 m =
      { Machine.frameDone s i (i + m) with
        kind := u.kind, frm := u.frm, nmax := u.nmax, att := u.att
        rsp := u.rsp, stRaw := u.stRaw, st := u.st } := by
  have hbyte := receivedByte_of_later hl h.params h.misoAt 0 6
  have hsync := syncAfter_of_later h.params h.misoAt hm
  simp only [Machine.frameDone, hbyte, h.frameWord hl, hsync, h.params, h.env, h.cycle, List.drop_drop,
    State.mk.injEq]
  simp [Nat.add_assoc]

end

/-! ## The acceptance of a POLL and its attempts -/

/-- The machine after the accept edge of a POLL. -/
def pollAccept (n : Nat) (s : State) : State := advance { acceptPoll n s with msync := nextSync s }

section
variable {s : State} {n : Nat}

theorem exec_poll_ready (hs : Ready s) : exec (.poll n) s = .next (pollAccept n s) :=
  (exec_poll n s).trans (clock_ready hs _)

theorem pollAccept_outside : OutsideAfter s 1 (pollAccept n s) := by
  unfold pollAccept acceptPoll
  split <;> exact ⟨rfl, List.drop_one.symm, rfl⟩

/-- R163, R172: the cycles of a POLL up to the end of attempt `a`, counted from 0. -/
theorem pollCycles_succ (p : Params) (a : Nat) : pollCycles p (a + 1) = a * attemptPitch p + frameCycles p := by
  rw [pollCycles, Nat.add_sub_cancel, attemptPitch]
  ring

theorem pollCycles_le (p : Params) {j : Nat} (h1 : 1 ≤ j) (hj : j ≤ n) : pollCycles p j ≤ pollCycles p n := by
  obtain ⟨a, rfl⟩ := Nat.exists_eq_add_of_le' h1
  rw [pollCycles_succ]
  exact attempt_in_poll p hj

/-- R163, R172: a cycle of a POLL of `j` attempts lies in the frame of one of them, or in the wait after one that is not
the last. -/
theorem pollCycles_cases {p : Params} {i j : Nat} (hi : i < pollCycles p j) (hj : 1 ≤ j) :
    (i % attemptPitch p < frameCycles p ∧ i / attemptPitch p < j) ∨
    (frameCycles p ≤ i % attemptPitch p ∧ i / attemptPitch p + 1 < j) := by
  obtain ⟨last, rfl⟩ := Nat.exists_eq_add_of_le' hj
  rw [pollCycles_succ] at hi
  have hpitch : frameCycles p ≤ attemptPitch p := Nat.le_add_right _ _
  have hattempt : i / attemptPitch p < last + 1 :=
    Nat.div_lt_of_lt_mul (by rw [Nat.mul_comm, Nat.add_one_mul]; omega)
  rcases Nat.lt_or_ge (i % attemptPitch p) (frameCycles p) with hframe | hwait
  · exact .inl ⟨hframe, hattempt⟩
  · have hsplit := Nat.div_add_mod' i (attemptPitch p)
    have hbefore : i / attemptPitch p ≠ last := by
      intro h
      rw [h] at hsplit
      omega
    exact .inr ⟨hwait, by omega⟩

end

/-! ## The attempt that ends a POLL (R168, R171) -/

/-- The machine in the response cycle of a `POLL n` accepted in `s` that made `j` attempts. -/
def pollDone (s : State) (n j : Nat) : State :=
  attemptAnswered
    { frameDone s (1 + (j - 1) * attemptPitch s.params) (pollCycles s.params j) with
      kind := .poll, frm := statusReadFrame s.params, nmax := n }
    (attemptWord s j) j

theorem pollDone_rsp (s : State) (n j : Nat) :
    (pollDone s n j).rsp = ⟨attemptWord s j, (decodeStatus s.params (attemptWord s j)).done, j, false⟩ := rfl

section
variable {s u : State} {n a : Nat}

/-- R164, R171: an attempt that shows done or uses up the budget is answered when its frame ends. -/
theorem AttemptBegins.answered (h : AttemptBegins u n a) (hn : n < 2 ^ u.params.cntW) (ha : a < n)
    (hlast : (decodeStatus u.params (frameWord u 0)).done = true ∨ a + 1 = n)
    (hr : NoReset u (frameCycles u.params)) :
    run (frameCycles u.params) u =
      .next (attemptAnswered (frameDone u 0 (frameCycles u.params - 1)) (frameWord u 0) (a + 1)) := by
  obtain ⟨v, hv⟩ := h.frame.lastCycle hr
  have hkind : v.kind = .poll := by rw [hv.frame.command.kind, elapse_kind, h.kind]
  have hbudget : v.nmax = n := by rw [hv.frame.command.nmax, elapse_nmax, h.budget]
  have hparams := hv.frame.params
  have hnext : nextAttempt { v with xs := .off, csN := true } = a + 1 := by
    simp only [nextAttempt, hparams, hv.frame.progress.att, h.made]
    exact Nat.mod_eq_of_lt (by omega)
  have hend : (decodeStatus v.params (frameWord u 0)).done = true ∨
      nextAttempt { v with xs := .off, csN := true } = v.nmax := by rwa [hnext, hbudget, hparams]
  rw [hv.run_eq hr, frameEnd_poll (s := { v with xs := .off, csN := true }) hkind,
    pollAttemptEnd_answers (s := { v with xs := .off, csN := true }) hend, hnext]
  exact congrArg (fun w => Host.Outcome.next (attemptAnswered w (frameWord u 0) (a + 1))) hv.rest

/-- R168, R172: what the last attempt of a POLL leaves, as a function of the levels of `miso` after the acceptance. -/
theorem AttemptBegins.pollDone (h : AttemptBegins u n a) (hl : s.params.legal = true)
    (hout : OutsideAfter s (1 + a * attemptPitch s.params) u) :
    attemptAnswered (frameDone u 0 (frameCycles u.params - 1)) (frameWord u 0) (a + 1) =
      Machine.pollDone s n (a + 1) := by
  have hlong := syncStages_lt_frameCycles hl
  have hlast : 1 + a * attemptPitch s.params + (frameCycles s.params - 1) = pollCycles s.params (a + 1) := by
    rw [pollCycles_succ]
    omega
  rw [hout.attemptWord hl, hout.params, hout.frameDone hl (by omega), hlast, Machine.pollDone, Nat.add_sub_cancel,
    h.kind, h.frm, h.budget, hout.params]
  rfl

end

/-! ## The frames and the waits of a POLL, cycle by cycle (R163, R170) -/

/-- After its last phase a list of phases is in `X_OFF`. -/
theorem phaseAt_of_le {l : List (Xs × Nat)} {i : Nat} (hi : phaseCycles l ≤ i) : phaseAt l i = .off := by
  obtain ⟨k, rfl⟩ := Nat.exists_eq_add_of_le hi
  have hend := phaseAt_append_right l [] k
  rwa [List.append_nil] at hend

theorem frameEnd_csN (s : State) (w : Word32) : (frameEnd s w).csN = s.csN := by
  rcases kind_frame_or_poll s.kind with hk | hk
  · rw [frameEnd_frame hk, respond_csN]
  · rw [frameEnd_poll hk]
    rcases pollAttemptEnd_cases s w with ⟨-, e⟩ | ⟨-, -, e⟩ <;> rw [e]

section
variable {u v : State} {n a i : Nat}

/-- R103, R106: the edge that ends a frame releases the bus. -/
theorem FrameBegins.released (h : FrameBegins u) (hr : NoReset u (frameCycles u.params))
    (hrun : run (frameCycles u.params) u = .next v) : v.xs = .off ∧ v.csN = true := by
  obtain ⟨x, hx⟩ := h.lastCycle hr
  obtain rfl := Host.Outcome.next.inj ((hx.run_eq hr).symm.trans hrun)
  exact ⟨(frameEnd_phase { x with xs := .off, csN := true } (frameWord u 0)).1,
    frameEnd_csN { x with xs := .off, csN := true } (frameWord u 0)⟩

/-- R163, R171: a cycle of the wait between two attempts. -/
theorem WaitBegins.cycle (h : WaitBegins u n a) (hi : i < u.params.tPoll) (hr : NoReset u i) :
    ∃ v, run i u = .next v ∧ v.ctl = .pwait ∧ v.xs = u.xs ∧ v.csN = u.csN ∧ v.att = a := by
  have hcount : i ≤ u.tcnt := by
    rw [h.timer]
    omega
  exact ⟨_, run_timing h.legal (.inl h.ctl) i hcount hr, by simp [h.ctl], by simp, by simp, by simp [h.made]⟩

end

/-! ## A POLL from its acceptance to its response -/

section
variable {s : State} {n a i : Nat} (hs : Ready s) (h1 : 1 ≤ n) (hn : n < 2 ^ s.params.cntW)
  (hr : NoReset s (pollCycles s.params n + 2))
include hs h1 hn hr

/-- R163: attempt `a`, counted from 0, of a POLL that makes more than `a` attempts, seen from the acceptance. -/
theorem poll_attempt (ha : a < (pollOutcome s n).attempts) :
    ∃ u, run (a * attemptPitch s.params) (pollAccept n s) = .next u ∧ AttemptBegins u n a ∧
      OutsideAfter s (1 + a * attemptPitch s.params) u ∧ NoReset u (frameCycles u.params) := by
  obtain ⟨t, u, ht, hu, huatt, hpu, hru⟩ := poll_attemptBegins hs h1 hn hr ha
  obtain rfl : pollAccept n s = t := by simpa [exec_poll_ready hs] using ht
  exact ⟨u, hu, huatt, pollAccept_outside.run hu, hpu ▸ hru⟩

/-- R168, R172: a POLL from its acceptance to its response. -/
theorem poll_answered :
    run (pollCycles s.params (pollOutcome s n).attempts) (pollAccept n s) =
      .next (pollDone s n (pollOutcome s n).attempts) ∧
    rspValid (pollDone s n (pollOutcome s n).attempts) = true := by
  obtain ⟨hge, hle, -, hstop⟩ := pollOutcome_attempts s h1
  have hshort := pollCycles_le s.params hge hle
  obtain ⟨a, ha⟩ := Nat.exists_eq_add_of_le' hge
  obtain ⟨u, hu, huatt, hout, hru⟩ := poll_attempt (a := a) hs h1 hn hr (by omega)
  rw [ha] at hle hstop ⊢
  have hlast := huatt.answered (by rwa [hout.params]) hle (by rwa [hout.attemptWord hs.1, hout.params]) hru
  have hrun : run (pollCycles s.params (a + 1)) (pollAccept n s) = .next (pollDone s n (a + 1)) := by
    rw [pollCycles_succ, run_add _ _ hu, ← hout.params, hlast, huatt.pollDone hs.1 hout]
  rw [ha] at hshort
  have hnow := (pollAccept_outside.run hrun).noReset (k := 1) hr (by omega) 0 Nat.one_pos
  exact ⟨hrun, (rspValid_iff _).2 ⟨rfl, hnow⟩⟩

/-- R163, R171: after an attempt that is not the last the machine waits, the bus released. -/
theorem poll_wait (ha : a + 1 < (pollOutcome s n).attempts) :
    ∃ u, run (a * attemptPitch s.params + frameCycles s.params) (pollAccept n s) = .next u ∧
      WaitBegins u n (a + 1) ∧ u.xs = .off ∧ u.csN = true ∧ u.params = s.params ∧
      NoReset u s.params.tPoll := by
  obtain ⟨hge, hle, hbefore, -⟩ := pollOutcome_attempts s h1
  obtain ⟨u, hu, huatt, hout, hru⟩ := poll_attempt (a := a) hs h1 hn hr (by omega)
  have hdone := hbefore (a + 1) (Nat.le_add_left 1 a) ha
  rw [← hout.attemptWord hs.1, ← hout.params] at hdone
  obtain ⟨v, hv, hwait⟩ := huatt.missed (by rwa [hout.params]) (by omega) hdone hru
  obtain ⟨hxs, hcs⟩ := huatt.frame.released hru hv
  have houtv := hout.run hv
  rw [hout.params] at hv houtv
  have hpitch : attemptPitch s.params = frameCycles s.params + s.params.tPoll := rfl
  have hinside := attempt_in_poll s.params (show a + 1 < n by omega)
  rw [Nat.add_one_mul] at hinside
  exact ⟨v, (run_add _ _ hu).trans hv, hwait, hxs, hcs, houtv.params, houtv.noReset hr (by omega)⟩

/-- R161, R170: a cycle of the frame of an attempt that is made. -/
theorem poll_frame_cycle (ha : a < (pollOutcome s n).attempts) (hi : i < frameCycles s.params) :
    ∃ u, run (a * attemptPitch s.params + i) (pollAccept n s) = .next u ∧ u.ctl = .xfer ∧
      u.frm = statusReadFrame s.params ∧ u.xs = phaseAt (framePhases s.params) i ∧
      (u.csN = false ↔ s.params.tIdle ≤ i) ∧ u.att = a := by
  obtain ⟨u, hu, huatt, hout, hru⟩ := poll_attempt hs h1 hn hr ha
  rw [← hout.params] at hi
  obtain ⟨v, hv, hctl, hxs, hcs⟩ := huatt.frame.cycle hru hi
  rw [hout.params] at hxs hcs
  exact ⟨v, (run_add _ _ hu).trans hv.reached, hctl, by rw [hv.frm, huatt.frm, hout.params], hxs, hcs,
    hv.progress.att.trans huatt.made⟩

/-- R163, R170: a cycle of the wait after an attempt that is not the last. -/
theorem poll_wait_cycle (ha : a + 1 < (pollOutcome s n).attempts) (hi : i < s.params.tPoll) :
    ∃ u, run (a * attemptPitch s.params + (frameCycles s.params + i)) (pollAccept n s) = .next u ∧ u.ctl = .pwait ∧
      u.xs = .off ∧ u.csN = true ∧ u.att = a + 1 := by
  obtain ⟨u, hu, hwait, hxs, hcs, hparams, hru⟩ := poll_wait hs h1 hn hr ha
  obtain ⟨v, hv, hctl, hvxs, hvcs, hatt⟩ := hwait.cycle (by rwa [hparams]) (hru.mono hi.le)
  exact ⟨v, by rw [← Nat.add_assoc, run_add _ _ hu, hv], hctl, hvxs.trans hxs, hvcs.trans hcs, hatt⟩

end

/-! ## The obligations -/

/-- Settles O26: the machine's loop is the loop of the command level, and its last attempt is answered. -/
theorem pollAnswersTheLastWord : Obligations.PollAnswersTheLastWord := by
  refine ⟨by decide, fun s n hs h1 hn hr => ?_⟩
  obtain ⟨hge, hle, hbefore, hstop⟩ := pollOutcome_attempts s h1
  obtain ⟨hrun, -⟩ := poll_answered hs h1 hn (hr.mono (by omega))
  have hshort := pollCycles_le s.params hge hle
  have hrest : NoReset (pollDone s n (pollOutcome s n).attempts) 2 :=
    (pollAccept_outside.run hrun).noReset hr (by omega)
  obtain ⟨hvalid, v, hv, hgone, hready, hrsp, hst, hraw⟩ := response_then_ready hrest hs.1 rfl
  exact ⟨_, _, _, v, hge, hle, hbefore, hstop, exec_poll_ready hs, hrun, rfl, hvalid, hv, hgone, hready, hrsp, hst,
    hraw⟩

/-- Settles O27: a cycle of a POLL lies in the frame of its attempt or in the wait after it, which the last attempt
does not have. -/
theorem pollKeepsItsSchedule : Obligations.PollKeepsItsSchedule := by
  intro s n hs h1 hn hr
  refine ⟨_, exec_poll_ready hs, fun i hi => ?_⟩
  obtain ⟨hge, -⟩ := pollOutcome_attempts s h1
  obtain ⟨-, -, -, -, hpoll⟩ := legal_times hs.1
  have hpitch : attemptPitch s.params = frameCycles s.params + s.params.tPoll := rfl
  have hmod : i % attemptPitch s.params < attemptPitch s.params := Nat.mod_lt _ (by omega)
  have hsplit := Nat.div_add_mod' i (attemptPitch s.params)
  rcases pollCycles_cases hi hge with ⟨hframe, ha⟩ | ⟨hwait, ha⟩
  · obtain ⟨u, hu, hctl, -, hxs, hcs, hatt⟩ := poll_frame_cycle hs h1 hn hr ha hframe
    rw [hsplit] at hu
    exact ⟨u, hu, by simp [hctl, hframe], hxs, by simp [hcs, hframe], by simp [hatt, hframe],
      by simp [rspValid, hctl], by simp [reqReady, hctl]⟩
  · obtain ⟨u, hu, hctl, hxs, hcs, hatt⟩ :=
      poll_wait_cycle (i := i % attemptPitch s.params - frameCycles s.params) hs h1 hn hr ha (by omega)
    rw [Nat.add_sub_cancel' hwait, hsplit] at hu
    have hlate := Nat.not_lt.2 hwait
    have hoff := phaseAt_of_le ((phaseCycles_framePhases s.params).trans_le hwait)
    exact ⟨u, hu, by simp [hctl, hlate], hxs.trans hoff.symm, by simp [hcs, hlate], by simp [hatt, hlate],
      by simp [rspValid, hctl], by simp [reqReady, hctl]⟩

/-- Settles O30: with no word that shows done, all `n` attempts are made, and done gates the last decoding. -/
theorem exhaustedPollClearsToUnknown : Obligations.ExhaustedPollClearsToUnknown := by
  intro s n hs h1 hn hr hdone
  obtain ⟨hge, hle, -, hstop⟩ := pollOutcome_attempts s h1
  have hall : (pollOutcome s n).attempts = n := hstop.resolve_left (by simp [hdone _ hge hle])
  have hlast : (decodeStatus s.params (attemptWord s n)).done = false := hdone n h1 le_rfl
  obtain ⟨hrun, hvalid⟩ := poll_answered hs h1 hn hr
  rw [hall] at hrun hvalid
  obtain ⟨herror, hwarning, hcode, -, -, hmeas, hfifo, hdepth⟩ :=
    statusGatedWhileNotDone s.params (attemptWord s n) hlast
  have hrsp : (pollDone s n n).rsp = ⟨attemptWord s n, false, n, false⟩ := by rw [pollDone_rsp, hlast]
  exact ⟨_, _, exec_poll_ready hs, hrun, hvalid, hrsp, rfl, hlast, herror, hwarning, hcode, hmeas, hfifo, hdepth⟩

/-- Settles O31: a budget of 1 is used up by the first attempt, so there is one frame and no wait. -/
theorem pollOnceChecksOnce : Obligations.PollOnceChecksOnce := by
  intro s hs hr
  have hcount := legal_count hs.1
  have hn : 1 < 2 ^ s.params.cntW := Nat.one_lt_two_pow (by omega)
  obtain ⟨hge, hle, -⟩ := pollOutcome_attempts s le_rfl
  have honce : (pollOutcome s 1).attempts = 1 := le_antisymm hle hge
  have hcycles : pollCycles s.params 1 = frameCycles s.params := by simp [pollCycles]
  rw [← hcycles] at hr
  obtain ⟨hrun, hvalid⟩ := poll_answered hs le_rfl hn hr
  rw [honce, hcycles] at hrun
  rw [honce] at hvalid
  refine ⟨_, _, exec_poll_ready hs, fun i hi => ?_, hrun, hvalid, rfl⟩
  obtain ⟨u, hu, hctl, hfrm, hxs, -⟩ := poll_frame_cycle (a := 0) hs le_rfl hn hr hge hi
  rw [Nat.zero_mul, Nat.zero_add] at hu
  exact ⟨u, hu, hctl, hfrm, hxs⟩

end Sys2Proof.Machine

/-! # Illegal requests, and what stands in the place of exceptions (spec/60_exceptions.md) -/

namespace Sys2Proof.Machine

/-! ## The edge that answers an illegal request (R202) -/

/-- The state after a ready machine's cycle with an illegal request on its port. -/
def illegalAnswered (s : State) : State := advance { illegalRequest s with msync := nextSync s }

section
variable {s : State}

theorem reservedCycle_ready (hs : Ready s) : reservedCycle s = .next (illegalAnswered s) := clock_ready hs _

theorem exec_poll_zero_ready (hs : Ready s) : exec (.poll 0) s = .next (illegalAnswered s) := pollZeroIsIllegal s hs

/-- R81: the clock cycle of a reserved command code. -/
theorem step_of_reserved (hv : (pinsAt s 0).reqValid = true) (hc : 2 ≤ cmdField s.params.cntW (pinsAt s 0).req) :
    step s = reservedCycle s := by
  simp [step, offered, hv, decode_of_cmd_reserved hc]

/-- R167: the clock cycle of a POLL with a count field of 0. -/
theorem step_of_poll_zero (hv : (pinsAt s 0).reqValid = true) (hc : cmdField s.params.cntW (pinsAt s 0).req = 1)
    (hn : countField s.params.cntW (pinsAt s 0).req = 0) : step s = exec (.poll 0) s := by
  apply step_of_request hv
  rw [decode_of_cmd_one hc, hn]

/-- R202: the three kinds of illegal request have the same edge. -/
theorem step_of_illegal_request (hs : Ready s) (hv : (pinsAt s 0).reqValid = true)
    (h : cmdField s.params.cntW (pinsAt s 0).req = 2 ∨ cmdField s.params.cntW (pinsAt s 0).req = 3 ∨
      (cmdField s.params.cntW (pinsAt s 0).req = 1 ∧ countField s.params.cntW (pinsAt s 0).req = 0)) :
    step s = .next (illegalAnswered s) := by
  rcases h with hc | hc | ⟨hc, hn⟩
  · rw [step_of_reserved hv (by omega), reservedCycle_ready hs]
  · rw [step_of_reserved hv (by omega), reservedCycle_ready hs]
  · rw [step_of_poll_zero hv hc hn, exec_poll_zero_ready hs]

end

/-! ## Runs of a legal configuration (R8, R200) -/

/-- The machine has no fault, and a step keeps the parameters, so no cycle of a legal configuration ends a run. -/
theorem run_answers_of_legal {s : State} (hl : s.params.legal = true) (k : Nat) : ∃ t, run k s = .next t := by
  induction k generalizing s with
  | zero => exact ⟨s, rfl⟩
  | succ k ih =>
    have hs : step s = .next (edge s (portAction s)) := step_of_legal hl
    obtain ⟨hp, -, -⟩ := step_outside hs
    obtain ⟨t, ht⟩ := ih (s := edge s (portAction s)) (by rwa [hp])
    exact ⟨t, run_succ_next_iff.2 ⟨_, hs, ht⟩⟩

theorem step_of_illegal_configuration {s : State} (hl : s.params.legal = false) :
    step s = .refused .illegalConfiguration := by
  rw [step_eq_clock, clock_of_illegal hl]

/-! ## The obligations -/

/-- Settles O45: a machine is ready in `C_IDLE` only and answers in `C_RESP` only. -/
theorem acceptanceAndResponseNeverMeet : Obligations.AcceptanceAndResponseNeverMeet := by
  rintro s ⟨hready, hvalid⟩
  obtain ⟨hidle, -⟩ := (reqReady_iff s).1 hready
  obtain ⟨hresp, -⟩ := (rspValid_iff s).1 hvalid
  rw [hidle] at hresp
  contradiction

/-- Settles O21: the edge of an illegal request leads to `C_RESP`, and the edge after it to `C_IDLE`. -/
theorem illegalRequestsGetTheIllegalResponse : Obligations.IllegalRequestsGetTheIllegalResponse := by
  intro s hs hr hv h
  have hstep : step s = .next (illegalAnswered s) := step_of_illegal_request hs hv h
  have hlater : NoReset (illegalAnswered s) 2 := noReset_step hstep hr
  have hback := step_of_resp (s := illegalAnswered s) hs.1 rfl (hlater 0 (by decide))
  obtain ⟨hvalid, u, hu, hgone, hready, -⟩ := response_then_ready hlater hs.1 rfl
  obtain rfl := Host.Outcome.next.inj (hu.symm.trans hback)
  exact ⟨_, _, hstep, rfl, hvalid, hback, hgone, hready, rfl⟩

/-- Settles O38: every run of a legal configuration answers, with what `run_outside` says of it, and `clock` refuses
the first cycle of any other. -/
theorem legalMachineNeverStops : Obligations.LegalMachineNeverStops := by
  refine ⟨fun s k hl => ?_, fun s hl => step_of_illegal_configuration hl⟩
  obtain ⟨t, ht⟩ := run_answers_of_legal hl k
  obtain ⟨hp, he, hc⟩ := run_outside ht
  exact ⟨t, ht, hp, hc, he⟩

end Sys2Proof.Machine

/-! # Reset (spec/70_reset_and_hazards.md R220 to R222) -/

namespace Sys2Proof.Machine

/-! ## The cycle with `rst` high (R220) -/

/-- R206, R220: reset overrides whatever the machine is doing and whatever its request port offers. -/
theorem step_of_rst {s : State} (hl : s.params.legal = true) (hr : (pinsAt s 0).rst = true) :
    step s = .next (advance (resetRegs s)) := by
  rw [step_of_legal hl, edge_of_rst hr]

/-- R220: a cycle with `rst` high neither accepts a request nor gives a response. -/
theorem ports_of_rst {s : State} (hr : (pinsAt s 0).rst = true) : reqReady s = false ∧ rspValid s = false := by
  simp [reqReady, rspValid, hr]

/-! ## The cycles after it (R221, R222) -/

/-- Every register but the synchroniser's flops, which follow `miso`, holds its reset value. -/
def HoldsResetValues (s : State) : Prop :=
  s = { State.resetOf s.params with msync := s.msync, env := s.env, cycle := s.cycle }

section
variable {s t u : State}

theorem holdsResetValues_of_rst (hr : (pinsAt s 0).rst = true) (hs : step s = .next t) : HoldsResetValues t := by
  obtain ⟨-, rfl⟩ := step_next_iff.1 hs
  rw [edge_of_rst hr]
  rfl

theorem HoldsResetValues.ctl (h : HoldsResetValues s) : s.ctl = .idle := by rw [h]; rfl

theorem HoldsResetValues.bus (h : HoldsResetValues s) :
    s.csN = true ∧ s.sclk = s.params.spiMode.cpol ∧ s.mosi = false := by
  rw [h]; exact ⟨rfl, rfl, rfl⟩

theorem HoldsResetValues.status (h : HoldsResetValues s) : s.stRaw = 0 ∧ s.st = Status.zero := by
  rw [h]; exact ⟨rfl, rfl⟩

/-- A machine in `C_IDLE` is in no response cycle. -/
theorem HoldsResetValues.rspValid (h : HoldsResetValues s) : rspValid s = false := by
  rw [Machine.rspValid, h.ctl]; rfl

/-- With no request offered, the reset values stay: a cycle with `rst` high loads them again, and in any other the
machine is ready and keeps them. -/
theorem HoldsResetValues.step (h : HoldsResetValues s) (hv : (pinsAt s 0).reqValid = false) (hs : step s = .next t) :
    HoldsResetValues t := by
  cases hr : (pinsAt s 0).rst
  case true => exact holdsResetValues_of_rst hr hs
  case false =>
    obtain ⟨hl, -⟩ := step_next_iff.1 hs
    have hkeeps := idleCycleKeepsEveryRegister s ⟨hl, h.ctl, hr⟩ hv
    obtain rfl := Host.Outcome.next.inj (hkeeps.symm.trans hs)
    rw [h]; rfl

theorem HoldsResetValues.run (h : HoldsResetValues s) {k : Nat} (hv : ∀ i, i < k → (pinsAt s i).reqValid = false)
    (hrun : run k s = .next u) : HoldsResetValues u := by
  induction k generalizing s with
  | zero =>
    obtain rfl : s = u := by simpa using hrun
    exact h
  | succ k ih =>
    obtain ⟨t, hs, ht⟩ := run_succ_next_iff.1 hrun
    refine ih (h.step (hv 0 k.succ_pos) hs) (fun i hi => ?_) ht
    rw [step_pinsAt hs]
    exact hv (i + 1) (by omega)

end

/-! ## The obligations -/

/-- Settles O13: reset overrides the edge, and the reset state is in `C_IDLE`. -/
theorem resetPinLoadsEveryResetValue : Obligations.ResetPinLoadsEveryResetValue := by
  intro s hl hr
  obtain ⟨hready, hvalid⟩ := ports_of_rst hr
  refine ⟨hready, hvalid, _, step_of_rst hl hr, rfl, fun hlow => ⟨rfl, ?_⟩⟩
  have hnow : (pinsAt (advance (resetRegs s)) 0).rst = false := by
    rwa [pinsAt_advance, pinsAt_congr (resetRegs_env s)]
  exact (reqReady_iff _).2 ⟨rfl, hnow⟩

/-- Settles O14: the first cycle loads the reset values, and while no request is offered the later ones keep them. -/
theorem resetAbandonsTheCommand : Obligations.ResetAbandonsTheCommand := by
  intro s k hl hr hv
  obtain ⟨u, hrun⟩ := run_answers_of_legal hl (k + 1)
  obtain ⟨t, hs, hrest⟩ := run_succ_next_iff.1 hrun
  have ht : HoldsResetValues t := holdsResetValues_of_rst hr hs
  have hu : HoldsResetValues u := by
    refine ht.run (fun i hi => ?_) hrest
    rw [step_pinsAt hs]
    exact hv (i + 1) (by omega) (by omega)
  obtain ⟨hparams, -, -⟩ := run_outside hrun
  obtain ⟨hcs, hclk, hmosi⟩ := hu.bus
  obtain ⟨hraw, hst⟩ := hu.status
  exact ⟨u, hrun, hu.rspValid, hcs, by rw [hclk, hparams], hmosi, hraw, hst⟩

end Sys2Proof.Machine

/-! # The names of the error flags and the command offered on the request port (notes/assumptions/3.md to 6.md, 16.md) -/

namespace Sys2Proof.Machine

/-! ## The list of set error flags (R80, R145) -/

/-- One position of `ERR_FLAG_ORDER` puts its flag, and no other, in the list when its bit is set. -/
theorem mem_errorFlags_iff_zipIdx (p : Params) (s : Status) (f : ErrorFlag) :
    f ∈ s.errorFlags p ↔ ∃ i, (f, i) ∈ p.errFlagOrder.zipIdx ∧ s.errFlags.getLsbD i = true := by
  rw [Status.errorFlags, List.mem_filterMap]
  constructor
  · rintro ⟨⟨g, i⟩, hmem, hset⟩
    obtain ⟨hbit, hflag⟩ := Option.ite_none_right_eq_some.1 hset
    obtain rfl : g = f := Option.some.inj hflag
    exact ⟨i, hmem, hbit⟩
  · rintro ⟨i, hmem, hbit⟩
    exact ⟨(f, i), hmem, if_pos hbit⟩

/-! ## A word of the opcode table on the request port (R31, R70) -/

theorem decodeTableWord_eq_some_iff {nbits w : Nat} {i : Instr} :
    decodeTableWord nbits w = some i ↔ decode 16 (w % 2 ^ nbits) = .ok i := by
  rw [decodeTableWord]
  cases decode 16 (w % 2 ^ nbits) with
  | error r => simp [Except.toOption]
  | ok j => simp [Except.toOption]

@[simp] theorem withFetchWord_params (s : State) (nbits w : Nat) : (s.withFetchWord nbits w).params = s.params := rfl

@[simp] theorem pinsAt_withFetchWord_zero (s : State) (nbits w : Nat) : pinsAt (s.withFetchWord nbits w) 0 =
    { pinsAt s 0 with rst := false, reqValid := true, req := w % 2 ^ nbits } := rfl

/-- A machine whose count field is the table's runs the command that the table's word decodes to. -/
theorem step_withFetchWord {s : State} {nbits w : Nat} {i : Instr} (hw : s.params.cntW = 16)
    (hd : decodeTableWord nbits w = some i) : step (s.withFetchWord nbits w) = exec i (s.withFetchWord nbits w) := by
  have hvalid : (pinsAt (s.withFetchWord nbits w) 0).reqValid = true := by simp
  refine step_of_request hvalid ?_
  rw [withFetchWord_params, hw, pinsAt_withFetchWord_zero]
  exact decodeTableWord_eq_some_iff.1 hd

/-! ## The obligations -/

/-- Settles O11: a flag paired with `i` by `zipIdx` is the flag at position `i`. -/
theorem everySetErrorFlagIsReported : Obligations.EverySetErrorFlagIsReported := by
  intro p s f
  simp only [mem_errorFlags_iff_zipIdx, List.mk_mem_zipIdx_iff_getElem?]

/-- Settles O16: any offered command, one offered as a word of the table, and what every step adds. -/
theorem stepRunsTheOfferedCommand : Obligations.StepRunsTheOfferedCommand :=
  ⟨fun _ _ => step_of_request, fun _ _ _ _ => step_withFetchWord, fun _ _ => step_outside⟩

end Sys2Proof.Machine
